-- ==== Sys2Proof/Word.lean ====
section
/-! DEFINITION. The value types of the core: unsigned bit vectors `uN` (spec/00_scope.md R5, R7; no signed value
anywhere). Bit 0 is the least significant bit. Only the types stand here; every operation on them is under
`Sys2Proof/Machine/`. -/

namespace Sys2Proof

/-- `u4`: an SBox entry, a status code, `OP`, `SEL`, a round-key index (R4, R26, R42). -/
abbrev U4 := BitVec 4
/-- `u6`: one SBox input group (R4, R76). -/
abbrev U6 := BitVec 6
/-- `u8`: the command word `cmd` (R40, R47). -/
abbrev U8 := BitVec 8
/-- `u28`: one half of the key-schedule state (R4, R66). -/
abbrev U28 := BitVec 28
/-- `u32`: a half block (R4). -/
abbrev U32 := BitVec 32
/-- `u48`: a round key, the expanded half block (R4). -/
abbrev U48 := BitVec 48
/-- `u56`: the output of PC-1 (R4). -/
abbrev U56 := BitVec 56
/-- `u64`: a block, a master key, an operand port, the result port (R4, R40). -/
abbrev U64 := BitVec 64

/-- The sixteen 48-bit values of the round-key file, `RK[0]` to `RK[15]` (R11). -/
abbrev RoundKeys := Vector U48 16

end Sys2Proof
end

