-- ==== Sys2Proof/Config.lean ====
section
/-! DEFINITION. What is fixed for every instance of the core (spec/00_scope.md R4): the sizes, and the TYPE of a
constant permutation table. The tables' contents are in `Sys2Proof/Machine/Tables.lean`. The spec leaves no value
open (spec/92_eei_decisions.md: "None is left `OPEN`: the model takes no parameter"), so no free value stands here. -/

namespace Sys2Proof

/-- Number of Feistel rounds, and of round keys (R4). -/
def Config.rounds : Nat := 16
/-- Number of SBoxes and of 6-bit groups (R4). -/
def Config.groups : Nat := 8
/-- Number of legal command words (R46). -/
def Config.legalWords : Nat := 41

/-- A permutation table of size `W` over source width `S`: entry 0 first, 0-based (R21, R22).
That it has `W` entries, each below `S`, is the check `tableInRange` of `Sys2Proof/Machine/Engine.lean`. -/
structure PermTable (W S : Nat) where
  entries : List Nat
  deriving DecidableEq, Repr

end Sys2Proof
end

