-- ==== Sys2Proof/Syntax.lean ====
section
/-! DEFINITION. The thirteen commands (spec/30_encoding.md R43), one constructor per row of spec/opcode_table.json,
and the one-line assembler form of a command (R48). A command's operands `kin` and `din` are values on the port
(R40, R42), not part of the command word, so a constructor carries only what `SEL` selects. -/

namespace Sys2Proof

/-- The engine's two addressing modes (R50; `SEL[3]` of BPERM, R44). -/
inductive Mode where
  /-- MODE = 0: `out[i] = in[T[i]]`. -/
  | direct
  /-- MODE = 1: `out[W-1-i] = in[S-1-T[i]]`. -/
  | complement
  deriving DecidableEq, Repr

/-- The thirteen commands of R43. -/
inductive Instr where
  /-- OP 0x0, InitialPermutation (R52). -/
  | ip
  /-- OP 0x1, FinalPermutation (R53). -/
  | fp
  /-- OP 0x2, the 32-bit permutation (R54). -/
  | pbox
  /-- OP 0x3, its inverse (R55). -/
  | pboxinv
  /-- OP 0x4, Expansion (R56). -/
  | expand
  /-- OP 0x5, PermutedChoice1 (R57). -/
  | pc1
  /-- OP 0x6, PermutedChoice2 (R58). -/
  | pc2
  /-- OP 0x7, the engine with table id `SEL[2:0]` and mode `SEL[3]` (R44, R59); table id 7 is ill-formed (R46). -/
  | bperm (tsel : BitVec 3) (mode : Mode)
  /-- OP 0x8, GenerateSubkeys (R67). -/
  | genkeys
  /-- OP 0x9, read round key `SEL` (R70). -/
  | rdkey (idx : U4)
  /-- OP 0xA, one Feistel round (R75). -/
  | feistel
  /-- OP 0xB, IsolatedRound (R88). -/
  | isoround
  /-- OP 0xC, EncryptBlock (R85). -/
  | encrypt
  deriving DecidableEq, Repr

/-- One line of the assembler form (R48): a mnemonic with its named operands. -/
inductive AsmLine where
  | ip (d : U64)
  | fp (d : U64)
  | pbox (d : U64)
  | pboxinv (d : U64)
  | expand (d : U64)
  | pc1 (d : U64)
  | pc2 (d : U64)
  | bperm (tsel : BitVec 3) (mode : Mode) (d : U64)
  | genkeys (k : U64)
  | rdkey (idx : U4)
  | feistel (k : U64) (r linv : U32)
  | isoround (k d : U64)
  | encrypt (k d : U64)
  deriving DecidableEq, Repr

end Sys2Proof
end

