-- ==== Sys2Proof/Machine/Engine.lean ====
section
/-! DEFINITION. The bit-permutation engine `BPE` (spec/40_bitperm.md R50), generic over the table and the mode, the
seven functions it computes for the rest of the core (R52 to R58), and `rol28` (spec/00_scope.md 5.2). -/

namespace Sys2Proof.Machine

/-- The number whose bit `j` is the `j`-th element of the list. -/
def natOfBits : List Bool → Nat
  | [] => 0
  | b :: bs => b.toNat + 2 * natOfBits bs

/-- R50's check, made before any bit is used: `W` entries, each in `0..S-1` (R21). -/
def tableInRange {W S : Nat} (T : PermTable W S) : Bool :=
  T.entries.length == W && T.entries.all (fun t => decide (t < S))

/-- The input bit of each output bit, output bit 0 first (R50). Direct: output bit `i` takes input bit `T[i]`.
Complement-indexed: output bit `W-1-i` takes input bit `S-1-T[i]`, so the list runs from the last entry to the first. -/
def sources {W S : Nat} (T : PermTable W S) : Mode → List Nat
  | .direct => T.entries
  | .complement => (T.entries.map fun t => S - 1 - t).reverse

/-- `BPE(x, T, S, mode)` on a table that passes `tableInRange` (R50); the commands take TableIndexOutOfRange on one
that does not (R109). -/
def bpe {W S : Nat} (T : PermTable W S) (mode : Mode) (x : BitVec S) : BitVec W :=
  BitVec.ofNat W (natOfBits ((sources T mode).map fun j => x.getLsbD j))

/-- InitialPermutation (R52). -/
def initialPermutation (x : U64) : U64 := bpe tIP .direct x
/-- FinalPermutation (R53). -/
def finalPermutation (x : U64) : U64 := bpe tFP .direct x
/-- The 32-bit permutation PBOX (R54; "PBoxPermute" and "Permute" are one function, spec/90_conflicts.md C1). -/
def permute32 (x : U32) : U32 := bpe tP .direct x
/-- PermuteInverse, PBOXINV (R55). -/
def permuteInverse32 (x : U32) : U32 := bpe tPINV .direct x
/-- Expansion, EXPAND (R56). -/
def expansion (x : U32) : U48 := bpe tE .direct x
/-- PermutedChoice1, PC-1, complement-indexed (R57). -/
def permutedChoice1 (x : U64) : U56 := bpe tPC1 .complement x
/-- PermutedChoice2, PC-2, complement-indexed (R58). -/
def permutedChoice2 (x : U56) : U48 := bpe tPC2 .complement x

/-- `rol28(v, n)`: circular left rotation of a `u28` (spec/00_scope.md 5.2); bit `i` moves to bit `(i+n) mod 28`. -/
def rol28 (v : U28) (n : Nat) : U28 := (v <<< n) ||| (v >>> (28 - n))

end Sys2Proof.Machine
end

