-- ==== Sys2Proof/WellFormed.lean ====
section
/-! DEFINITION. Which instructions are commands of the core (spec/30_encoding.md R44, R46). The operand types already
hold every field inside its width; the one value left to check is BPERM's table id, of which 7 names no table. -/

namespace Sys2Proof

/-- R46 (a): there is no eighth table, so BPERM with `SEL[2:0] = 7` is no command. -/
def WellFormed : Instr → Bool
  | .bperm tsel _ => tsel ≠ 7#3
  | .ip | .fp | .pbox | .pboxinv | .expand | .pc1 | .pc2 => true
  | .genkeys | .rdkey _ | .feistel | .isoround | .encrypt => true

end Sys2Proof
end

