-- ==== Sys2Proof/Decode.lean ====
section
/-! DEFINITION. The decoder and the encoder of the 8-bit command word (spec/30_encoding.md R42 to R47). Decoding is
total on all 256 words and refuses the 215 illegal ones by name (R46); what the core does on a refused word is
IllegalCommand (R96), taken in `Sys2Proof/Machine/Port.lean`. -/

namespace Sys2Proof

/-- Why a command word is not legal (R96 (a), (b), (c)). -/
inductive DecodeError where
  /-- `OP` is 0xD, 0xE or 0xF (R45). -/
  | reservedOp
  /-- BPERM with table id 7 (R46 (a)). -/
  | reservedTable
  /-- `SEL` is not 0 and `OP` is neither BPERM nor RDKEY (R46 (b)). -/
  | nonzeroSel
  deriving DecidableEq, Repr

/-- `OP = cmd[3:0]` (R42). -/
def opField (cmd : U8) : U4 := cmd.extractLsb' 0 4
/-- `SEL = cmd[7:4]` (R42). -/
def selField (cmd : U8) : U4 := cmd.extractLsb' 4 4
/-- BPERM's `TSEL = SEL[2:0]` (R44). -/
def tselField (sel : U4) : BitVec 3 := sel.extractLsb' 0 3
/-- BPERM's `MODE = SEL[3]` (R44): 0 direct, 1 complement-indexed. -/
def modeField (sel : U4) : Mode := if sel.getLsbD 3 then .complement else .direct
/-- The bit of a mode (R44). -/
def modeBit : Mode → BitVec 1
  | .direct => 0#1
  | .complement => 1#1

/-- A command that does not use `SEL` demands `SEL = 0` (R44, R46 (b)). -/
def withoutSel (sel : U4) (i : Instr) : Except DecodeError Instr :=
  if sel = 0#4 then .ok i else .error .nonzeroSel

/-- The decoder (R43, R44, R45, R46). -/
def decode (cmd : U8) : Except DecodeError Instr :=
  let sel := selField cmd
  match (opField cmd).toNat with
  | 0x0 => withoutSel sel .ip
  | 0x1 => withoutSel sel .fp
  | 0x2 => withoutSel sel .pbox
  | 0x3 => withoutSel sel .pboxinv
  | 0x4 => withoutSel sel .expand
  | 0x5 => withoutSel sel .pc1
  | 0x6 => withoutSel sel .pc2
  | 0x7 => if tselField sel = 7#3 then .error .reservedTable else .ok (.bperm (tselField sel) (modeField sel))
  | 0x8 => withoutSel sel .genkeys
  | 0x9 => .ok (.rdkey sel)
  | 0xA => withoutSel sel .feistel
  | 0xB => withoutSel sel .isoround
  | 0xC => withoutSel sel .encrypt
  | _ => .error .reservedOp

/-- The `OP` of a command (R43, first column). -/
def opOf : Instr → U4
  | .ip => 0x0#4
  | .fp => 0x1#4
  | .pbox => 0x2#4
  | .pboxinv => 0x3#4
  | .expand => 0x4#4
  | .pc1 => 0x5#4
  | .pc2 => 0x6#4
  | .bperm _ _ => 0x7#4
  | .genkeys => 0x8#4
  | .rdkey _ => 0x9#4
  | .feistel => 0xA#4
  | .isoround => 0xB#4
  | .encrypt => 0xC#4

/-- The `SEL` of a command (R43, R44). -/
def selOf : Instr → U4
  | .bperm tsel mode => modeBit mode ++ tsel
  | .rdkey idx => idx
  | .ip | .fp | .pbox | .pboxinv | .expand | .pc1 | .pc2 => 0#4
  | .genkeys | .feistel | .isoround | .encrypt => 0#4

/-- The encoder: `cmd = SEL ‖ OP` (R42). -/
def encode (i : Instr) : U8 := selOf i ++ opOf i

/-- The instruction the decoder reads from a word whose bits are numbered as spec/opcode_table.json numbers them.
A command word is one 8-bit word (R47), so the bits above bit 7 belong to no command. -/
def decodeTableWord (nbits w : Nat) : Option Instr :=
  match decode (BitVec.ofNat 8 (w % 2 ^ nbits)) with
  | .ok i => some i
  | .error _ => none

end Sys2Proof
end

