-- ==== Sys2Proof/Machine/State.lean ====
section
/-! DEFINITION. The state of one core (spec/10_state.md R10) together with what stands at its port (spec/30_encoding.md
R40): the commands and resets the host will present, the operands of the command being run, and the responses given.
Plain data; no memory exists (spec/20_memory.md R30). -/

namespace Sys2Proof.Machine

/-- The three faults the core raises (spec/60_exceptions.md R95). Taking one is a NEXT state: `FLT` takes its code and
the core is halted until reset (R98, R99). -/
inductive FaultCode where
  /-- Code 1, raised by the decoder (R96). -/
  | illegalCommand
  /-- Code 2, raised by RDKEY when `RKV = 0` (R97). -/
  | roundKeyInvalid
  /-- Code 3, raised by the engine on a table entry out of range (R109); unreachable with the tables of R23 to R27. -/
  | tableIndexOutOfRange
  deriving DecidableEq, Repr

/-- A command request on the port (R40). -/
structure Request where
  /-- The 8-bit command word. -/
  cmd : U8
  /-- The key operand. -/
  kin : U64
  /-- The data operand. -/
  din : U64
  deriving DecidableEq, Repr

/-- What the host can present to one core: a command on the port, or the reset input, which is separate from the
port and falls between commands (R40, R110). -/
inductive HostEvent where
  | command (r : Request)
  | reset
  deriving DecidableEq, Repr

/-- The one answer to a command (R40). -/
structure Response where
  /-- 0 = OK, otherwise the fault code of R95. -/
  status : U4
  /-- The result, zero-extended; 0 when `status` is nonzero. -/
  dout : U64
  deriving DecidableEq, Repr

/-- One core and its port. `rk` and `flt` are all the architectural state (R10); the other four fields are the port
(R17: ports, not registers). -/
structure State where
  /-- The round-key file with its valid flag: `none` is `RKV = 0`, where the sixteen registers "hold no value" and "a
  model must not give them one" (R13, R29; spec/93_implementation_defined.md U6: "an option type or the like");
  `some ks` is `RKV = 1` with `RK[i] = ks[i]`. The flag as a bit is `State.rkv`. -/
  rk : Option RoundKeys
  /-- The sticky fault register `FLT`, four bits, 0 = no fault (R14). -/
  flt : U4
  /-- The key operand of the command being run (R40). -/
  kin : U64
  /-- The data operand of the command being run (R40). -/
  din : U64
  /-- What the host presents next, in the order it arrives (R36, R38, R110); the step takes its head. -/
  incoming : List HostEvent
  /-- The responses given so far, one per command, in command order (R40, R115). -/
  responses : List Response
  deriving DecidableEq, Repr

/-- Reasons for the whole machine to stop. There are none: every fault of the spec (R95) is a next state, and every
command word in every state has a defined outcome. Safe: no step of the model can end a run with a fault. -/
inductive Fault
  deriving DecidableEq, Repr

/-- Reasons to give an instruction no meaning. -/
inductive Refusal where
  /-- An instruction with no meaning yet, by its mnemonic: raised by `exec` alone, and no arm raises it now. Safe. -/
  | notModelled (mnemonic : String)
  deriving DecidableEq, Repr

/-- The core right after reset or power-on (R29, R110): `RKV = 0` with the registers holding no value, `FLT = 0`, no
command pending, no response. DESIGN CHOICE: the operand ports stand at 0 until the first command drives them (R17: a
port is no register, and nothing reads it between commands); unsafe only for a statement about the idle port. -/
def State.reset : State where
  rk := none
  flt := 0#4
  kin := 0#64
  din := 0#64
  incoming := []
  responses := []

end Sys2Proof.Machine
end

