-- ==== Sys2Proof/Machine/Flags.lean ====
section
/-! DEFINITION. The two flag-like items of the core, `RKV` and `FLT` (spec/10_state.md R13, R14). There are no condition
codes and no command writes a flag as a side effect of computing a value (R15). -/

namespace Sys2Proof.Machine

/-- `RKV`, the round-key-valid flag: 1 when the file has been written since reset (R10, R13). -/
def State.rkv (s : State) : BitVec 1 := if s.rk.isSome then 1#1 else 0#1

/-- The core is halted while `FLT` is nonzero (R99). -/
def State.halted (s : State) : Bool := s.flt ≠ 0#4

/-- `status` of a completed command (R40). -/
def statusOk : U4 := 0#4

/-- The code of a fault (R95). -/
def faultStatus : FaultCode → U4
  | .illegalCommand => 1#4
  | .roundKeyInvalid => 2#4
  | .tableIndexOutOfRange => 3#4

end Sys2Proof.Machine
end

