-- ==== Sys2Proof/Machine/Operands.lean ====
section
/-! DEFINITION. Where operands and results sit on the ports (spec/30_encoding.md R42, R43; spec/20_memory.md R32): a
narrower operand in the low bits of its port, the bits a command does not name ignored, a result zero-extended. -/

namespace Sys2Proof.Machine

/-- `high32(v) = v[63:32]` (R32). -/
def high32 (v : U64) : U32 := v.extractLsb' 32 32
/-- `low32(v) = v[31:0]` (R32). -/
def low32 (v : U64) : U32 := v.extractLsb' 0 32
/-- The left half of a 56-bit value, `v[55:28]` (R32, R66). -/
def high28 (v : U56) : U28 := v.extractLsb' 28 28
/-- The right half of a 56-bit value, `v[27:0]` (R66). -/
def low28 (v : U56) : U28 := v.extractLsb' 0 28

/-- `din[63:0]`: a block, a master key on `din`, a 64-bit value (R43). -/
def State.din64 (s : State) : U64 := s.din
/-- `din[31:0]`: a 32-bit value, or FEISTEL's R (R43). -/
def State.din32 (s : State) : U32 := low32 s.din
/-- `din[63:32]`: FEISTEL's LInverse (R43). -/
def State.dinHigh32 (s : State) : U32 := high32 s.din
/-- `din[55:0]`: PC2's operand (R43). -/
def State.din56 (s : State) : U56 := s.din.extractLsb' 0 56
/-- `kin[63:0]`: a master key (R43). -/
def State.kin64 (s : State) : U64 := s.kin
/-- `kin[47:0]`: a round key or subkey (R43). -/
def State.kin48 (s : State) : U48 := s.kin.extractLsb' 0 48

/-- `zext_64(result)` (R41 (a)). -/
def zext64 {w : Nat} (v : BitVec w) : U64 := v.setWidth 64

end Sys2Proof.Machine
end

