-- ==== Sys2Proof/Machine/Ops.lean ====
section
/-! DEFINITION. The named operations on the core's state: giving a response (spec/30_encoding.md R41), reading and writing
the round-key file (spec/10_state.md R11), TAKING A FAULT and the halted answer (spec/60_exceptions.md R98, R99), and RESET,
the only way out of the halted state (R101, spec/70_reset_and_hazards.md R110). -/

namespace Sys2Proof.Machine

/-- What every step and every command answers. -/
abbrev Answer := Host.Outcome State Fault Refusal

/-- Give the one response of a command (R40, R115). -/
def State.respond (s : State) (status : U4) (dout : U64) : State :=
  { s with responses := s.responses ++ [{ status := status, dout := dout }] }

/-- Complete with a result: `status = 0`, `dout = zext_64(result)` (R41 (a)). -/
def State.complete {w : Nat} (s : State) (result : BitVec w) : State :=
  s.respond statusOk (zext64 result)

/-- Fault entry (R98): `FLT` takes the code, `status` is the code, `dout = 0`, and nothing else is written. -/
def State.takeFault (s : State) (c : FaultCode) : State :=
  State.respond { s with flt := faultStatus c } (faultStatus c) 0#64

/-- The halted answer (R41 (c), R99): the stored code, `dout = 0`, no state changed. -/
def State.answerHalted (s : State) : State := s.respond s.flt 0#64

/-- Reset (R29, R110): `RKV` and `FLT` cleared, the round-key registers lose their values. The port is the host's: what
it will present and the responses already given stand. -/
def State.applyReset (s : State) : State := { s with rk := none, flt := 0#4 }

/-- Write all sixteen round keys at once and set `RKV` (R11, R13). -/
def State.writeRoundKeys (s : State) (ks : RoundKeys) : State := { s with rk := some ks }

/-- Read `RK[idx]`; `none` while `RKV = 0`, when the registers hold no value (R13, R70). -/
def State.readRoundKey (s : State) (idx : U4) : Option U48 :=
  s.rk.map fun ks => ks.get idx.toFin

/-- The request's operands stand on the port while its command runs (R40). -/
def State.presentOperands (s : State) (r : Request) : State := { s with kin := r.kin, din := r.din }

/-- A command runs only while the core is not halted (R99, R100: the halted answer comes before every other condition). -/
def whenLive (s : State) (run : State → Answer) : Answer :=
  if s.halted then .next s.answerHalted else run s

/-- A command that permutes takes TableIndexOutOfRange if one of its tables has an entry out of range, before any bit of
a result is used (R50, R109). -/
def whenInRange (inRange : Bool) (s : State) (run : State → Answer) : Answer :=
  if inRange then run s else .next (s.takeFault .tableIndexOutOfRange)

end Sys2Proof.Machine
end

