-- ==== Sys2Proof/Machine/BitPerm.lean ====
section
/-! DEFINITION. The eight permutation commands (spec/40_bitperm.md R52 to R59): IP, FP, PBOX, PBOXINV, EXPAND, PC1, PC2 and
BPERM. Each is one application of the engine to a slice of `din`; none reads or writes `RK` or `RKV`. -/

namespace Sys2Proof.Machine

/-- Apply the engine to `x` and answer the result zero-extended (R50, R41 (a)). -/
def permuteCommand {W S : Nat} (T : PermTable W S) (mode : Mode) (x : BitVec S) (s : State) : Answer :=
  whenLive s fun s => whenInRange (tableInRange T) s fun s => .next (s.complete (bpe T mode x))

/-- IP (R52). -/
def execIp (s : State) : Answer := permuteCommand tIP .direct s.din64 s
/-- FP (R53). -/
def execFp (s : State) : Answer := permuteCommand tFP .direct s.din64 s
/-- PBOX (R54). -/
def execPbox (s : State) : Answer := permuteCommand tP .direct s.din32 s
/-- PBOXINV (R55). -/
def execPboxinv (s : State) : Answer := permuteCommand tPINV .direct s.din32 s
/-- EXPAND (R56). -/
def execExpand (s : State) : Answer := permuteCommand tE .direct s.din32 s
/-- PC1 (R57): its operand is on `din`, not `kin`. -/
def execPc1 (s : State) : Answer := permuteCommand tPC1 .complement s.din64 s
/-- PC2 (R58). -/
def execPc2 (s : State) : Answer := permuteCommand tPC2 .complement s.din56 s

/-- BPERM (R59): the table and the mode chosen by the host, all fourteen pairs legal; table id 7 raises IllegalCommand
(the decoder refuses that word already, R46 (a)). -/
def execBperm (tsel : BitVec 3) (mode : Mode) (s : State) : Answer :=
  match tsel.toNat with
  | 0 => permuteCommand tIP mode s.din64 s
  | 1 => permuteCommand tFP mode s.din64 s
  | 2 => permuteCommand tE mode s.din32 s
  | 3 => permuteCommand tP mode s.din32 s
  | 4 => permuteCommand tPINV mode s.din32 s
  | 5 => permuteCommand tPC1 mode s.din64 s
  | 6 => permuteCommand tPC2 mode s.din56 s
  | _ => whenLive s fun s => .next (s.takeFault .illegalCommand)

end Sys2Proof.Machine
end

