-- ==== Sys2Proof/Machine/Feistel.lean ====
section
/-! DEFINITION. The Feistel round `F` (spec/42_feistel.md R75 to R79) and the command FEISTEL. -/

namespace Sys2Proof.Machine

/-- Group `i` of the mixed value: `x[6i+5:6i]` (R76). -/
def group (x : U48) (i : Nat) : U6 := x.extractLsb' (6 * i) 6

/-- `n_i = SB[7-i][g_i]`: the reversed SBox indexing, to be "preserved exactly" (R77). -/
def nibble (x : U48) (i : Nat) : U4 := sbox (7 - i) (group x i)

/-- The eight nibbles in group order, `s[4i+3:4i] = n_i` (R78). -/
def substitute (x : U48) : U32 :=
  nibble x 7 ++ nibble x 6 ++ nibble x 5 ++ nibble x 4 ++ nibble x 3 ++ nibble x 2 ++ nibble x 1 ++ nibble x 0

/-- `F(rk, R, LInverse)` (R75): expand, mix, substitute, XOR with `LInverse`, permute. -/
def feistelF (rk : U48) (r linv : U32) : U32 :=
  permute32 (substitute (expansion r ^^^ rk) ^^^ linv)

/-- The tables one round permutes with are in range (R50, R109). -/
def roundTablesInRange : Bool := tableInRange tE && tableInRange tP

/-- FEISTEL (R75): `kin[47:0]` = roundKey, `din[31:0]` = R, `din[63:32]` = LInverse; no state but the response. -/
def execFeistel (s : State) : Answer :=
  whenLive s fun s => whenInRange roundTablesInRange s fun s =>
    .next (s.complete (feistelF s.kin48 s.din32 s.dinHigh32))

end Sys2Proof.Machine
end

