-- ==== Sys2Proof/Machine/KeySchedule.lean ====
section
/-! DEFINITION. The key schedule `KS` (spec/41_keyschedule.md R65, R66) and the commands GENKEYS (R67) and RDKEY (R70). -/

namespace Sys2Proof.Machine

/-- `(C, D)` after `r` rounds: PC-1's halves at 0, each rotated by `ROT[r-1]` in round `r` (R66). -/
def keyHalves (key : U64) : Nat → U28 × U28
  | 0 => (high28 (permutedChoice1 key), low28 (permutedChoice1 key))
  | r + 1 =>
    let cd := keyHalves key r
    (rol28 cd.1 (rot.getD r 0), rol28 cd.2 (rot.getD r 0))

/-- `K[r-1]`, the key of round `r`: PC-2 of `C ‖ D` (R66). -/
def roundKey (key : U64) (r : Nat) : U48 :=
  permutedChoice2 ((keyHalves key r).1 ++ (keyHalves key r).2)

/-- `KS(key)`: sixteen round keys, `KS(key)[i]` of round `i+1` (R66). -/
def keySchedule (key : U64) : RoundKeys := Vector.ofFn fun i : Fin 16 => roundKey key (i.val + 1)

/-- The tables the key schedule permutes with are in range (R50, R109). -/
def keyTablesInRange : Bool := tableInRange tPC1 && tableInRange tPC2

/-- GENKEYS (R67): writes all of `RK`, sets `RKV`, `dout = 0`; always recomputes (spec/90_conflicts.md C3). -/
def execGenkeys (s : State) : Answer :=
  whenLive s fun s => whenInRange keyTablesInRange s fun s =>
    .next ((s.writeRoundKeys (keySchedule s.kin64)).complete 0#64)

/-- RDKEY (R70): `RK[idx]` zero-extended, or RoundKeyInvalid while `RKV = 0` (R97). -/
def execRdkey (idx : U4) (s : State) : Answer :=
  whenLive s fun s =>
    match s.readRoundKey idx with
    | none => .next (s.takeFault .roundKeyInvalid)
    | some k => .next (s.complete k)

end Sys2Proof.Machine
end

