-- ==== Sys2Proof/Machine/DesCipher.lean ====
section
/-! DEFINITION. The DES orchestrator (spec/43_descipher.md): ENCRYPT (R85, R86) and ISOROUND (R88). Encryption only: the
core has no decryption and none is defined here (R92). -/

namespace Sys2Proof.Machine

/-- `newR` of one round on the 64-bit state: `F` with `R = low32`, `LInverse = PBOXINV(high32)` (R85 step 3). -/
def roundNewR (k : U48) (st : U64) : U32 :=
  feistelF k (low32 st) (permuteInverse32 (high32 st))

/-- The cipher state after `r` rounds (R85 step 3): rounds 1 to 15 swap (`R ‖ newR`), round 16 does not (`newR ‖ R`). -/
def cipherState (ks : RoundKeys) (st0 : U64) : Nat → U64
  | 0 => st0
  | r + 1 =>
    let st := cipherState ks st0 r
    let newR := roundNewR (ks.getD r 0#48) st
    if r + 1 = 16 then newR ++ low32 st else low32 st ++ newR

/-- Steps 2 to 4 of R85 with the round keys `ks`. -/
def encryptWith (ks : RoundKeys) (block : U64) : U64 :=
  finalPermutation (cipherState ks (initialPermutation block) 16)

/-- `EncryptBlock(key, block)` (R85). -/
def encryptBlock (key block : U64) : U64 := encryptWith (keySchedule key) block

/-- `IsolatedRound(subkey, plaintext)` (R88): initial permutation, then round 1's data path; `newR` alone. -/
def isolatedRound (subkey : U48) (plaintext : U64) : U32 :=
  roundNewR subkey (initialPermutation plaintext)

/-- The tables ISOROUND permutes with are in range (R50, R109). -/
def isoroundTablesInRange : Bool := tableInRange tIP && tableInRange tPINV && roundTablesInRange

/-- The tables ENCRYPT permutes with are in range (R50, R109). -/
def cipherTablesInRange : Bool := keyTablesInRange && isoroundTablesInRange && tableInRange tFP

/-- ISOROUND (R88): neither reads nor writes `RK` or `RKV`. -/
def execIsoround (s : State) : Answer :=
  whenLive s fun s => whenInRange isoroundTablesInRange s fun s =>
    .next (s.complete (isolatedRound s.kin48 s.din64))

/-- ENCRYPT (R85): step 1 writes the schedule of `kin` into `RK` and sets `RKV`, the rounds use the keys just written. -/
def execEncrypt (s : State) : Answer :=
  whenLive s fun s => whenInRange cipherTablesInRange s fun s =>
    .next ((s.writeRoundKeys (keySchedule s.kin64)).complete (encryptWith (keySchedule s.kin64) s.din64))

end Sys2Proof.Machine
end

