-- ==== Sys2Proof/Machine/Dispatch.lean ====
section
/-! DEFINITION. One arm per command, each one direct call of its meaning. -/

namespace Sys2Proof.Machine

def exec (i : Instr) (s : State) : Host.Outcome State Fault Refusal :=
  match i with
  | .ip => Sys2Proof.Machine.execIp s
  | .fp => Sys2Proof.Machine.execFp s
  | .pbox => Sys2Proof.Machine.execPbox s
  | .pboxinv => Sys2Proof.Machine.execPboxinv s
  | .expand => Sys2Proof.Machine.execExpand s
  | .pc1 => Sys2Proof.Machine.execPc1 s
  | .pc2 => Sys2Proof.Machine.execPc2 s
  | .bperm tsel mode => Sys2Proof.Machine.execBperm tsel mode s
  | .genkeys => Sys2Proof.Machine.execGenkeys s
  | .rdkey idx => Sys2Proof.Machine.execRdkey idx s
  | .feistel => Sys2Proof.Machine.execFeistel s
  | .isoround => Sys2Proof.Machine.execIsoround s
  | .encrypt => Sys2Proof.Machine.execEncrypt s

end Sys2Proof.Machine
end

