-- ==== Sys2Proof/Machine/Port.lean ====
section
/-! DEFINITION. The command port (spec/30_encoding.md R40, R43): taking what the host presents, one thing at a time, each
completed before the next (spec/20_memory.md R36, spec/70_reset_and_hazards.md R115). -/

namespace Sys2Proof.Machine

/-- Run a command word whose operands stand on the port (R43, R100): halted first, then decode, then the command; a word
the decoder refuses raises IllegalCommand with nothing executed (R96). -/
def runWord (cmd : U8) (s : State) : Answer :=
  whenLive s fun s =>
    match decode cmd with
    | .ok i => exec i s
    | .error _ => .next (s.takeFault .illegalCommand)

/-- One transition of the core: the next command to its response (R115), the reset input (R110), or, with nothing
presented, idle: "The core acts only in response to a command and is otherwise idle" (R102). -/
def serve (s : State) : Answer :=
  match s.incoming with
  | [] => .next s
  | .reset :: rest => .next (State.applyReset { s with incoming := rest })
  | .command r :: rest => runWord r.cmd (State.presentOperands { s with incoming := rest } r)

/-- The host presents a command, before whatever it would present next. -/
def presentNext (s : State) (r : Request) : State := { s with incoming := .command r :: s.incoming }

end Sys2Proof.Machine
end

