-- ==== Sys2Proof/Machine/Step.lean ====
section
/-! DEFINITION. One step of the machine, and the placing of a table row's word where the next step takes it. -/

namespace Sys2Proof.Machine

/-- One step: one transition at the command port. -/
def step (s : State) : Host.Outcome State Fault Refusal := serve s

/-- The word presented as the next command, with both operand ports at 0 (spec/30_encoding.md R48: unused ports are
written as 0). The core has no program counter (spec/10_state.md R16): this stands for the host issuing that command. -/
def State.withFetchWord (s : State) (nbits w : Nat) : State :=
  presentNext s { cmd := BitVec.ofNat 8 (w % 2 ^ nbits), kin := 0#64, din := 0#64 }

end Sys2Proof.Machine
end

