-- ==== Sys2Proof/Machine/Assembler.lean ====
section
/-! DEFINITION. The assembler form of a command and of a response (spec/30_encoding.md R48): a line is the triple
(`cmd`, `kin`, `din`) with unused ports written as 0, and has a text. -/

namespace Sys2Proof.Machine

/-- The command a line names (R43, R48). -/
def asmInstr : AsmLine → Instr
  | .ip _ => .ip
  | .fp _ => .fp
  | .pbox _ => .pbox
  | .pboxinv _ => .pboxinv
  | .expand _ => .expand
  | .pc1 _ => .pc1
  | .pc2 _ => .pc2
  | .bperm tsel mode _ => .bperm tsel mode
  | .genkeys _ => .genkeys
  | .rdkey idx => .rdkey idx
  | .feistel _ _ _ => .feistel
  | .isoround _ _ => .isoround
  | .encrypt _ _ => .encrypt

/-- `kin` of a line: its `k=` operand, 0 where it has none (R48). -/
def asmKin : AsmLine → U64
  | .genkeys k => k
  | .feistel k _ _ => k
  | .isoround k _ => k
  | .encrypt k _ => k
  | .ip _ | .fp _ | .pbox _ | .pboxinv _ | .expand _ | .pc1 _ | .pc2 _ | .bperm _ _ _ | .rdkey _ => 0#64

/-- `din` of a line: its `d=` operand, `linv ‖ r` for FEISTEL, 0 where it has none (R48). -/
def asmDin : AsmLine → U64
  | .ip d => d
  | .fp d => d
  | .pbox d => d
  | .pboxinv d => d
  | .expand d => d
  | .pc1 d => d
  | .pc2 d => d
  | .bperm _ _ d => d
  | .genkeys _ => 0#64
  | .rdkey _ => 0#64
  | .feistel _ r linv => linv ++ r
  | .isoround _ d => d
  | .encrypt _ d => d

/-- The encoding of a line (R48). -/
def assemble (l : AsmLine) : Request := { cmd := encode (asmInstr l), kin := asmKin l, din := asmDin l }

/-- A hexadecimal digit. -/
def hexDigit (n : Nat) : Char := ['0', '1', '2', '3', '4', '5', '6', '7', '8', '9', 'a', 'b', 'c', 'd', 'e', 'f'].getD n '?'

/-- The low `n` hexadecimal digits of a number, most significant first. -/
def hexDigits : Nat → Nat → List Char
  | 0, _ => []
  | n + 1, v => hexDigits n (v / 16) ++ [hexDigit (v % 16)]

/-- A value in C hexadecimal with `n` digits (R48). -/
def hexText (n : Nat) (v : Nat) : String := "0x" ++ String.ofList (hexDigits n v)

/-- `<table>` in `BPERM.<table>.<mode>` (R48). Table id 7 has no name and no line. -/
def tableText (tsel : BitVec 3) : String :=
  ["IP", "FP", "E", "P", "PINV", "PC1", "PC2"].getD tsel.toNat "?"

/-- `<mode>` in `BPERM.<table>.<mode>` (R48). -/
def modeText : Mode → String
  | .direct => "D"
  | .complement => "C"

/-- `<i>` in `RDKEY.<i>`, decimal (R48). -/
def indexText (idx : U4) : String :=
  ["0", "1", "2", "3", "4", "5", "6", "7", "8", "9", "10", "11", "12", "13", "14", "15"].getD idx.toNat "?"

/-- A command line's text: a mnemonic and its operands as `name=value` (R48). -/
def asmText : AsmLine → String
  | .ip d => "IP d=" ++ hexText 16 d.toNat
  | .fp d => "FP d=" ++ hexText 16 d.toNat
  | .pbox d => "PBOX d=" ++ hexText 16 d.toNat
  | .pboxinv d => "PBOXINV d=" ++ hexText 16 d.toNat
  | .expand d => "EXPAND d=" ++ hexText 16 d.toNat
  | .pc1 d => "PC1 d=" ++ hexText 16 d.toNat
  | .pc2 d => "PC2 d=" ++ hexText 16 d.toNat
  | .bperm tsel mode d => "BPERM." ++ tableText tsel ++ "." ++ modeText mode ++ " d=" ++ hexText 16 d.toNat
  | .genkeys k => "GENKEYS k=" ++ hexText 16 k.toNat
  | .rdkey idx => "RDKEY." ++ indexText idx
  | .feistel k r linv =>
    "FEISTEL k=" ++ hexText 16 k.toNat ++ ", r=" ++ hexText 8 r.toNat ++ ", linv=" ++ hexText 8 linv.toNat
  | .isoround k d => "ISOROUND k=" ++ hexText 16 k.toNat ++ ", d=" ++ hexText 16 d.toNat
  | .encrypt k d => "ENCRYPT k=" ++ hexText 16 k.toNat ++ ", d=" ++ hexText 16 d.toNat

/-- The name of a status code (R95); a code that no fault has gives no name. -/
def faultText (status : U4) : String :=
  match status.toNat with
  | 1 => "IllegalCommand"
  | 2 => "RoundKeyInvalid"
  | 3 => "TableIndexOutOfRange"
  | _ => "?"

/-- A response's text: `-> 0x<dout>` when `status = 0`, `-> FAULT(<name>)` otherwise (R48). -/
def responseText (r : Response) : String :=
  if r.status = 0#4 then "-> " ++ hexText 16 r.dout.toNat else "-> FAULT(" ++ faultText r.status ++ ")"

end Sys2Proof.Machine
end

