-- ==== Sys2Proof/Machine/Platform.lean ====
section
/-! DEFINITION. Several instances of the core (spec/60_exceptions.md R106): "the product of n copies of the single-instance
model with free interleaving". Each has its own `RK`, `RKV`, `FLT` and port; nothing mutable is shared. -/

namespace Sys2Proof.Machine

/-- `n` instances after power-on. -/
def platformReset (n : Nat) : List State := List.replicate n State.reset

/-- The instance at place `n` takes one step; the others stand. A place that holds no instance does nothing. -/
def platformStep (n : Nat) (p : List State) : Host.Outcome (List State) Fault Refusal :=
  match p[n]? with
  | none => .next p
  | some s =>
    match step s with
    | .next t => .next (p.set n t)
    | .fault f => .fault f
    | .refused r => .refused r

/-- A schedule of instances, taken one step at a time; every interleaving is some schedule. -/
def platformRun : List Nat → List State → Host.Outcome (List State) Fault Refusal
  | [], p => .next p
  | n :: ns, p =>
    match platformStep n p with
    | .next q => platformRun ns q
    | .fault f => .fault f
    | .refused r => .refused r

end Sys2Proof.Machine
end

