-- ==== Sys2Proof/Safety.lean ====
section
/-! DEFINITION. What counts as a good state and a good run, in the terms claims use (spec/70_reset_and_hazards.md R113,
R114; spec/10_state.md R12, R14). -/

namespace Sys2Proof.Machine

/-- Launch premise P1 and the end of a good run: `FLT = 0` (R113, R114). A halted state is never good (R99). -/
def GoodState (s : State) : Prop := s.flt = 0#4

/-- The file holds the schedule of some key whenever `RKV = 1` (R12; launch premise P2 of R113). -/
def KeyFileIsSchedule (s : State) : Prop := ∀ ks, s.rk = some ks → ∃ key : U64, ks = keySchedule key

/-- The key of the most recent GENKEYS or ENCRYPT that completed since reset, after the next step (R12; the core does not
store it, so it is no field of State: `last` is what it was before the step). -/
def lastKeyAfterStep (last : Option U64) (s : State) : Option U64 :=
  match s.incoming with
  | .reset :: _ => none
  | .command r :: _ =>
    if s.flt = 0#4 ∧ (decode r.cmd = .ok .genkeys ∨ decode r.cmd = .ok .encrypt) then some r.kin else last
  | [] => last

/-- `FLT` is 0 or the code of a fault some command can raise: values 4 to 15 never occur (R14) and code 3 is unreachable
(R109). -/
def FaultRegisterLegal (s : State) : Prop := s.flt = 0#4 ∨ s.flt = 1#4 ∨ s.flt = 2#4

/-- A response carries a status of R95 that a command can raise, and a nonzero status carries `dout = 0` (R41 (b), (c)). -/
def ResponseLegal (r : Response) : Prop :=
  (r.status = 0#4 ∨ r.status = 1#4 ∨ r.status = 2#4) ∧ (r.status ≠ 0#4 → r.dout = 0#64)

/-- Every response given so far is legal. -/
def ResponsesLegal (s : State) : Prop := ∀ r ∈ s.responses, ResponseLegal r

/-- The launch premises of a claim about a command sequence (R113): P1 and P2; P3 (no command in flight) holds of every
state, since commands are atomic (R115). -/
def LaunchPremises (s : State) : Prop := GoodState s ∧ KeyFileIsSchedule s

end Sys2Proof.Machine
end

