-- ==== Sys2Proof/Certificates/Slice0/Obligations.lean ====
section
/-! DEFINITION. The statements for the provers, each from the numbered rules of spec/. A statement about every state
holds in states no run reaches; `Live` (not halted) is the only condition most commands have. -/

namespace Sys2Proof.Claim
open Sys2Proof.Machine

/-- The core is not halted (R99). -/
def Live (s : State) : Prop := s.flt = 0#4

/-- `s` with one more response, nothing else changed. -/
def answer (s : State) (status : U4) (dout : U64) : State :=
  { s with responses := s.responses ++ [{ status := status, dout := dout }] }

/-- The state in which a command runs: taken from `incoming`, its operands on the port. -/
def taken (s : State) (r : Request) (rest : List HostEvent) : State :=
  { s with incoming := rest, kin := r.kin, din := r.din }

/-- The word with this `OP` and a nonzero `SEL` is refused for its `SEL`, and raises IllegalCommand with nothing else
written (R46 (b), R96, R98). -/
def SelMustBeZero (op : U4) : Prop :=
  ∀ sel : U4, sel ≠ 0#4 → decode (sel ++ op) = .error .nonzeroSel ∧
    ∀ (s : State) (kin din : U64) (rest : List HostEvent), s.incoming = .command ⟨sel ++ op, kin, din⟩ :: rest → Live s →
      step s = .next (answer { taken s ⟨sel ++ op, kin, din⟩ rest with flt := 1#4 } 1#4 0#64)

/-- `v` has `W` bits, bit `i` of them bit `src i` of `x`, and 0 above. -/
def Selects (v x : U64) (W : Nat) (src : Nat → Nat) : Prop :=
  ∀ i, v.getLsbD i = (decide (i < W) && x.getLsbD (src i))

/-- `v` has `W` bits, bit `W-1-i` of them bit `src i` of `x`, and 0 above. -/
def SelectsFromTop (v x : U64) (W : Nat) (src : Nat → Nat) : Prop :=
  (∀ i, i < W → v.getLsbD (W - 1 - i) = x.getLsbD (src i)) ∧ ∀ i, W ≤ i → v.getLsbD i = false

/-- Number of set bits of a vector. -/
def bitCount {w : Nat} (v : BitVec w) : Nat := ((List.range w).filter fun i => v.getLsbD i).length

/-- `W`, `S` and the entries of table `TSEL` (R59's list); table id 7 names no table. -/
def bpermTable (tsel : BitVec 3) : Nat × Nat × List Nat :=
  match tsel.toNat with
  | 0 => (64, 64, tIP.entries)
  | 1 => (64, 64, tFP.entries)
  | 2 => (48, 32, tE.entries)
  | 3 => (32, 32, tP.entries)
  | 4 => (32, 32, tPINV.entries)
  | 5 => (56, 64, tPC1.entries)
  | 6 => (48, 56, tPC2.entries)
  | _ => (0, 0, [])

/-- The 41 legal command words as R46 lists them. -/
def legalWords : List U8 :=
  [0x00#8, 0x01#8, 0x02#8, 0x03#8, 0x04#8, 0x05#8, 0x06#8] ++
  [0x07#8, 0x17#8, 0x27#8, 0x37#8, 0x47#8, 0x57#8, 0x67#8] ++
  [0x87#8, 0x97#8, 0xA7#8, 0xB7#8, 0xC7#8, 0xD7#8, 0xE7#8] ++
  [0x08#8] ++
  [0x09#8, 0x19#8, 0x29#8, 0x39#8, 0x49#8, 0x59#8, 0x69#8, 0x79#8] ++
  [0x89#8, 0x99#8, 0xA9#8, 0xB9#8, 0xC9#8, 0xD9#8, 0xE9#8, 0xF9#8] ++
  [0x0A#8, 0x0B#8, 0x0C#8]

/-- The bits of `kin` a command's row names (R43). -/
def kinUsed : Instr → U64
  | .genkeys | .encrypt => 0xFFFFFFFFFFFFFFFF#64
  | .feistel | .isoround => 0x0000FFFFFFFFFFFF#64
  | .ip | .fp | .pbox | .pboxinv | .expand | .pc1 | .pc2 | .bperm _ _ | .rdkey _ => 0#64

/-- The bits of `din` a command's row names (R43); for BPERM the low `S` bits, `S` the table's source width. -/
def dinUsed : Instr → U64
  | .ip | .fp | .pc1 | .feistel | .isoround | .encrypt => 0xFFFFFFFFFFFFFFFF#64
  | .pbox | .pboxinv | .expand => 0x00000000FFFFFFFF#64
  | .pc2 => 0x00FFFFFFFFFFFFFF#64
  | .bperm tsel _ => BitVec.ofNat 64 (2 ^ (bpermTable tsel).2.1 - 1)
  | .genkeys | .rdkey _ => 0#64

/-- `dout` of a completed command as a function of its operands (R52 to R59, R67, R75, R85, R88). RDKEY's `dout` is read from
the file (R70), so it has none here, and the statements that use this leave RDKEY to clauses of its own. -/
def resultOf : Instr → U64 → U64 → U64
  | .ip, _, din => initialPermutation din
  | .fp, _, din => finalPermutation din
  | .pbox, _, din => (permute32 (din.setWidth 32)).setWidth 64
  | .pboxinv, _, din => (permuteInverse32 (din.setWidth 32)).setWidth 64
  | .expand, _, din => (expansion (din.setWidth 32)).setWidth 64
  | .pc1, _, din => (permutedChoice1 din).setWidth 64
  | .pc2, _, din => (permutedChoice2 (din.setWidth 56)).setWidth 64
  | .bperm tsel mode, _, din =>
    match tsel.toNat with
    | 0 => bpe tIP mode din
    | 1 => bpe tFP mode din
    | 2 => (bpe tE mode (din.setWidth 32)).setWidth 64
    | 3 => (bpe tP mode (din.setWidth 32)).setWidth 64
    | 4 => (bpe tPINV mode (din.setWidth 32)).setWidth 64
    | 5 => (bpe tPC1 mode din).setWidth 64
    | 6 => (bpe tPC2 mode (din.setWidth 56)).setWidth 64
    | _ => 0#64
  | .genkeys, _, _ => 0#64
  | .rdkey _, _, _ => 0#64
  | .feistel, kin, din =>
    (feistelF (kin.setWidth 48) (din.setWidth 32) ((din >>> 32).setWidth 32)).setWidth 64
  | .isoround, kin, din => (isolatedRound (kin.setWidth 48) din).setWidth 64
  | .encrypt, kin, din => encryptBlock kin din

/-- The file a completed command leaves: GENKEYS and ENCRYPT the schedule of their `kin`, every other what it was (R11). -/
def fileAfter : Instr → State → Option RoundKeys
  | .genkeys, s | .encrypt, s => some (keySchedule s.kin)
  | .ip, s | .fp, s | .pbox, s | .pboxinv, s | .expand, s | .pc1, s | .pc2, s => s.rk
  | .bperm _ _, s | .rdkey _, s | .feistel, s | .isoround, s => s.rk

/-- Two keys that agree on every bit but 0, 8, 16, 24, 32, 40, 48, 56. -/
def SameEffectiveKey (k k' : U64) : Prop := ∀ i, i % 8 ≠ 0 → k.getLsbD i = k'.getLsbD i

/-- The cumulative rotation before PC2 in round `r`, `r` = 0..16 (R68 (a)). -/
def cumulativeRotation : List Nat := [0, 1, 2, 4, 6, 8, 10, 12, 14, 15, 17, 19, 21, 23, 25, 27, 28]

/-- The DES standard's printed list of IP, 1-based from the most significant end (spec/10_state.md, section 5). -/
def stdIP : List Nat :=
  [58, 50, 42, 34, 26, 18, 10, 2, 60, 52, 44, 36, 28, 20, 12, 4,
   62, 54, 46, 38, 30, 22, 14, 6, 64, 56, 48, 40, 32, 24, 16, 8,
   57, 49, 41, 33, 25, 17, 9, 1, 59, 51, 43, 35, 27, 19, 11, 3,
   61, 53, 45, 37, 29, 21, 13, 5, 63, 55, 47, 39, 31, 23, 15, 7]

/-- The DES standard's printed list of FP, 1-based from the most significant end (spec/10_state.md, section 5). -/
def stdFP : List Nat :=
  [40, 8, 48, 16, 56, 24, 64, 32, 39, 7, 47, 15, 55, 23, 63, 31,
   38, 6, 46, 14, 54, 22, 62, 30, 37, 5, 45, 13, 53, 21, 61, 29,
   36, 4, 44, 12, 52, 20, 60, 28, 35, 3, 43, 11, 51, 19, 59, 27,
   34, 2, 42, 10, 50, 18, 58, 26, 33, 1, 41, 9, 49, 17, 57, 25]

/-- The DES standard's printed list of PC1, 1-based from the most significant end (spec/10_state.md, section 5). -/
def stdPC1 : List Nat :=
  [57, 49, 41, 33, 25, 17, 9, 1, 58, 50, 42, 34, 26, 18, 10, 2,
   59, 51, 43, 35, 27, 19, 11, 3, 60, 52, 44, 36, 63, 55, 47, 39,
   31, 23, 15, 7, 62, 54, 46, 38, 30, 22, 14, 6, 61, 53, 45, 37,
   29, 21, 13, 5, 28, 20, 12, 4]

/-- The DES standard's printed list of PC2, 1-based from the most significant end (spec/10_state.md, section 5). -/
def stdPC2 : List Nat :=
  [14, 17, 11, 24, 1, 5, 3, 28, 15, 6, 21, 10, 23, 19, 12, 4,
   26, 8, 16, 7, 27, 20, 13, 2, 41, 52, 31, 37, 47, 55, 30, 40,
   51, 45, 33, 48, 44, 49, 39, 56, 34, 53, 46, 42, 50, 36, 29, 32]

/-- The DES standard's printed list of E, 1-based from the most significant end (spec/10_state.md, section 5). -/
def stdE : List Nat :=
  [32, 1, 2, 3, 4, 5, 4, 5, 6, 7, 8, 9, 8, 9, 10, 11,
   12, 13, 12, 13, 14, 15, 16, 17, 16, 17, 18, 19, 20, 21, 20, 21,
   22, 23, 24, 25, 24, 25, 26, 27, 28, 29, 28, 29, 30, 31, 32, 1]

/-- The DES standard's printed list of P, 1-based from the most significant end (spec/10_state.md, section 5). -/
def stdP : List Nat :=
  [16, 7, 20, 21, 29, 12, 28, 17, 1, 15, 23, 26, 5, 18, 31, 10,
   2, 8, 24, 14, 32, 27, 3, 9, 19, 13, 30, 6, 22, 11, 4, 25]

/-- The standard's printed S1, four rows of sixteen, row 0 first (R26). -/
def stdS1 : List Nat :=
  [14, 4, 13, 1, 2, 15, 11, 8, 3, 10, 6, 12, 5, 9, 0, 7,
   0, 15, 7, 4, 14, 2, 13, 1, 10, 6, 12, 11, 9, 5, 3, 8,
   4, 1, 14, 8, 13, 6, 2, 11, 15, 12, 9, 7, 3, 10, 5, 0,
   15, 12, 8, 2, 4, 9, 1, 7, 5, 11, 3, 14, 10, 0, 6, 13]

/-- The standard's printed S2, four rows of sixteen, row 0 first (R26). -/
def stdS2 : List Nat :=
  [15, 1, 8, 14, 6, 11, 3, 4, 9, 7, 2, 13, 12, 0, 5, 10,
   3, 13, 4, 7, 15, 2, 8, 14, 12, 0, 1, 10, 6, 9, 11, 5,
   0, 14, 7, 11, 10, 4, 13, 1, 5, 8, 12, 6, 9, 3, 2, 15,
   13, 8, 10, 1, 3, 15, 4, 2, 11, 6, 7, 12, 0, 5, 14, 9]

/-- The standard's printed S3, four rows of sixteen, row 0 first (R26). -/
def stdS3 : List Nat :=
  [10, 0, 9, 14, 6, 3, 15, 5, 1, 13, 12, 7, 11, 4, 2, 8,
   13, 7, 0, 9, 3, 4, 6, 10, 2, 8, 5, 14, 12, 11, 15, 1,
   13, 6, 4, 9, 8, 15, 3, 0, 11, 1, 2, 12, 5, 10, 14, 7,
   1, 10, 13, 0, 6, 9, 8, 7, 4, 15, 14, 3, 11, 5, 2, 12]

/-- The standard's printed S4, four rows of sixteen, row 0 first (R26). -/
def stdS4 : List Nat :=
  [7, 13, 14, 3, 0, 6, 9, 10, 1, 2, 8, 5, 11, 12, 4, 15,
   13, 8, 11, 5, 6, 15, 0, 3, 4, 7, 2, 12, 1, 10, 14, 9,
   10, 6, 9, 0, 12, 11, 7, 13, 15, 1, 3, 14, 5, 2, 8, 4,
   3, 15, 0, 6, 10, 1, 13, 8, 9, 4, 5, 11, 12, 7, 2, 14]

/-- The standard's printed S5, four rows of sixteen, row 0 first (R26). -/
def stdS5 : List Nat :=
  [2, 12, 4, 1, 7, 10, 11, 6, 8, 5, 3, 15, 13, 0, 14, 9,
   14, 11, 2, 12, 4, 7, 13, 1, 5, 0, 15, 10, 3, 9, 8, 6,
   4, 2, 1, 11, 10, 13, 7, 8, 15, 9, 12, 5, 6, 3, 0, 14,
   11, 8, 12, 7, 1, 14, 2, 13, 6, 15, 0, 9, 10, 4, 5, 3]

/-- The standard's printed S6, four rows of sixteen, row 0 first (R26). -/
def stdS6 : List Nat :=
  [12, 1, 10, 15, 9, 2, 6, 8, 0, 13, 3, 4, 14, 7, 5, 11,
   10, 15, 4, 2, 7, 12, 9, 5, 6, 1, 13, 14, 0, 11, 3, 8,
   9, 14, 15, 5, 2, 8, 12, 3, 7, 0, 4, 10, 1, 13, 11, 6,
   4, 3, 2, 12, 9, 5, 15, 10, 11, 14, 1, 7, 6, 0, 8, 13]

/-- The standard's printed S7, four rows of sixteen, row 0 first (R26). -/
def stdS7 : List Nat :=
  [4, 11, 2, 14, 15, 0, 8, 13, 3, 12, 9, 7, 5, 10, 6, 1,
   13, 0, 11, 7, 4, 9, 1, 10, 14, 3, 5, 12, 2, 15, 8, 6,
   1, 4, 11, 13, 12, 3, 7, 14, 10, 15, 6, 8, 0, 5, 9, 2,
   6, 11, 13, 8, 1, 4, 10, 7, 9, 5, 0, 15, 14, 2, 3, 12]

/-- The standard's printed S8, four rows of sixteen, row 0 first (R26). -/
def stdS8 : List Nat :=
  [13, 2, 8, 4, 6, 15, 11, 1, 10, 9, 3, 14, 5, 0, 12, 7,
   1, 15, 13, 8, 10, 3, 7, 4, 12, 5, 6, 11, 0, 14, 9, 2,
   7, 11, 4, 1, 9, 12, 14, 2, 0, 6, 10, 13, 15, 3, 5, 8,
   2, 1, 14, 7, 4, 10, 8, 13, 15, 12, 9, 0, 3, 5, 6, 11]

/-- The standard's eight boxes, S1 first. -/
def stdS : List (List Nat) := [stdS1, stdS2, stdS3, stdS4, stdS5, stdS6, stdS7, stdS8]
end Sys2Proof.Claim

open Sys2Proof Sys2Proof.Machine Sys2Proof.Claim

/-! ### Encoding and the command port -/

/-- R43, R44: words written out from the opcode map decode to their commands.
The spec marks as its own: R43 (decision D7, decision D11, decision D12), R44 (decision D7), R45 (decision D9, decision D20), R46 (decision D9). -/
def Obligations.DecodesWordsOfOpcodeMap : Prop :=
  decode 0x00#8 = .ok .ip ∧ decode 0x03#8 = .ok .pboxinv ∧ decode 0x37#8 = .ok (.bperm 3#3 .direct) ∧
  decode 0xB7#8 = .ok (.bperm 3#3 .complement) ∧ decode 0x08#8 = .ok .genkeys ∧ decode 0xF9#8 = .ok (.rdkey 15#4) ∧
  decode 0x0A#8 = .ok .feistel ∧ decode 0x0B#8 = .ok .isoround ∧ decode 0x0C#8 = .ok .encrypt ∧
  decode 0x0D#8 = .error .reservedOp ∧ decode 0x77#8 = .error .reservedTable ∧ decode 0x18#8 = .error .nonzeroSel

/-- R42 to R44: every well-formed instruction is read back from its word, with every operand.
The spec marks as its own: R42 (decision D7, decision D8), R43 (decision D7, decision D11, decision D12), R44 (decision D7). -/
def Obligations.DecodeOfEncodeIsTheInstruction : Prop :=
  ∀ i : Instr, WellFormed i = true → decode (encode i) = .ok i

/-- R42 to R47: a word that decodes has one meaning, is the word that instruction encodes to, and the instruction is
well-formed.
The spec marks as its own: R42 (decision D7, decision D8), R43 (decision D7, decision D11, decision D12), R44 (decision D7), R46 (decision D9), R47 (decision D7). -/
def Obligations.EncodeOfDecodeIsTheWord : Prop :=
  ∀ (w : U8) (i : Instr), decode w = .ok i → encode i = w ∧ WellFormed i = true

/-- R46: the legal words are exactly the 41 listed.
The spec marks as its own: R46 (decision D9). -/
def Obligations.LegalWordsAreFortyOne : Prop :=
  legalWords.length = 41 ∧ legalWords.Nodup ∧ ∀ w : U8, (∃ i, decode w = .ok i) ↔ w ∈ legalWords

/-- R96, R45: a word that is not legal, whatever its `SEL`, `kin` and `din`, raises IllegalCommand on a core that is not
halted: `FLT` takes 1, the response is status 1 with `dout = 0`, nothing else is written; and which words these are.
The spec marks as its own: R96 (decision D9), R98 (decision D13), R45 (decision D9, decision D20), R46 (decision D9). -/
def Obligations.IllegalWordTakesIllegalCommand : Prop :=
  (∀ (s : State) (r : Request) (rest : List HostEvent), s.incoming = .command r :: rest → Live s → r.cmd ∉ legalWords →
    step s = .next (answer { taken s r rest with flt := 1#4 } 1#4 0#64)) ∧
  ∀ w : U8, w ∉ legalWords ↔
    (w.extractLsb' 0 4 = 0xD#4 ∨ w.extractLsb' 0 4 = 0xE#4 ∨ w.extractLsb' 0 4 = 0xF#4) ∨
    (w.extractLsb' 0 4 = 0x7#4 ∧ w.extractLsb' 4 3 = 7#3) ∨
    (w.extractLsb' 0 4 ≠ 0x7#4 ∧ w.extractLsb' 0 4 ≠ 0x9#4 ∧ w.extractLsb' 4 4 ≠ 0#4)

/-- R43: when the command presented next decodes to `i`, the step is `exec i` with that command taken from the port and
its operands standing on it; and the word the host of the model places is the one the next step runs.
The spec marks as its own: R40 (decision D6), R43 (decision D7, decision D11, decision D12), R115 (decision D15).
The model's own: log entries 1 and 13. -/
def Obligations.StepRunsDecodedCommand : Prop :=
  (∀ (s : State) (r : Request) (rest : List HostEvent) (i : Instr), s.incoming = .command r :: rest →
    decode r.cmd = .ok i → step s = exec i (taken s r rest)) ∧
  ∀ (s : State) (w : Nat) (i : Instr), decodeTableWord 8 w = some i →
    step (s.withFetchWord 8 w) = exec i { s with kin := 0#64, din := 0#64 }

/-- R102, R108: with nothing presented the core is idle and holds its state.
The spec marks as its own: R102 (decision D22).
The model's own: log entry 5. -/
def Obligations.IdleCoreHoldsItsState : Prop := ∀ s : State, s.incoming = [] → step s = .next s

/-- R99: a halted core answers every command, legal or not, with the stored code and `dout = 0`, changes no state, does
not decode, and is never good; so does every command's own meaning.
The spec marks as its own: R99 (decision D13), R41 (decision D24), R100 (decision D13). -/
def Obligations.HaltedCoreAnswersStoredCode : Prop :=
  (∀ (s : State) (r : Request) (rest : List HostEvent), s.flt ≠ 0#4 → s.incoming = .command r :: rest →
    step s = .next (answer (taken s r rest) s.flt 0#64)) ∧
  (∀ (s : State) (i : Instr), s.flt ≠ 0#4 → exec i s = .next (answer s s.flt 0#64)) ∧
  ∀ s : State, s.flt ≠ 0#4 → ¬ GoodState s

/-- R99, R101: however many commands a halted core is given, it answers each with the stored code, and its fault
register and key file stand.
The spec marks as its own: R99 (decision D13), R101 (decision D13). -/
def Obligations.HaltedRunChangesNothing : Prop :=
  ∀ (rs : List Request) (s : State), s.flt ≠ 0#4 → s.incoming = rs.map HostEvent.command →
    ∃ t : State, Host.Core.run Sys2Proof.core rs.length s = .next t ∧ t.rk = s.rk ∧ t.flt = s.flt ∧ t.incoming = [] ∧
      t.responses = s.responses ++ List.replicate rs.length { status := s.flt, dout := 0#64 }

/-- R36, R40, R41, R115: a command gets exactly one response, given last, before the next command is taken; its status is
0 or what `FLT` then holds, and with a nonzero status `dout` is 0.
The spec marks as its own: R40 (decision D6), R41 (decision D24), R115 (decision D15).
The model's own: log entry 4. -/
def Obligations.OneResponsePerCommand : Prop :=
  ∀ (s : State) (r : Request) (rest : List HostEvent), s.incoming = .command r :: rest →
    ∃ (t : State) (a : Response), step s = .next t ∧ t.responses = s.responses ++ [a] ∧ t.incoming = rest ∧
      a.status = t.flt ∧ (a.status ≠ 0#4 → a.dout = 0#64)

/-- Every step of the model answers a next state: no state and no word stops the machine (R98, R99, R102: each has a
defined outcome).
The spec marks as its own: R98 (decision D13), R99 (decision D13), R102 (decision D22).
The model's own: log entry 12. -/
def Obligations.EveryStepAnswersNext : Prop :=
  (∀ s : State, ∃ t, step s = .next t) ∧ ∀ (i : Instr) (s : State), ∃ t, exec i s = .next t

/-! ### Reset, faults, invariants -/

/-- R29: the state after reset. No register has a value and none can be read; `RKV` and `FLT` are 0; no command is pending
and no response was given. (The 0 on the idle operand ports is the model's, log entry 2, and not stated.)
The spec marks as its own: R29 (decision D14).
The model's own: log entry 3. -/
def Obligations.ResetStateValues : Prop :=
  State.reset.rk = none ∧ (∀ idx, State.reset.readRoundKey idx = none) ∧ State.reset.rkv = 0#1 ∧
  State.reset.flt = 0#4 ∧ State.reset.incoming = [] ∧ State.reset.responses = []

/-- R110: the reset input clears `RKV` and `FLT` and the round-key registers lose their values; no command clears either.
The spec marks as its own: R110 (decision D14), R14 (decision D13), R101 (decision D13). -/
def Obligations.ResetAloneClearsRkvAndFlt : Prop :=
  (∀ (s : State) (rest : List HostEvent), s.incoming = .reset :: rest →
    step s = .next { s with incoming := rest, rk := State.reset.rk, flt := State.reset.flt } ∧
    State.reset.rkv = 0#1 ∧ State.reset.flt = 0#4) ∧
  (∀ (s t : State), (∀ rest, s.incoming ≠ .reset :: rest) → step s = .next t →
    (s.rkv = 1#1 → t.rkv = 1#1) ∧ (s.flt ≠ 0#4 → t.flt = s.flt))

/-- R98: a command that raises a fault writes the code into `FLT`, answers it with `dout = 0`, and writes nothing else.
The spec marks as its own: R98 (decision D13). -/
def Obligations.FaultWritesOnlyFlt : Prop :=
  ∀ (s t : State) (r : Request) (rest : List HostEvent), s.incoming = .command r :: rest → Live s → step s = .next t →
    t.flt ≠ 0#4 → t = answer { taken s r rest with flt := t.flt } t.flt 0#64 ∧ (t.flt = 1#4 ∨ t.flt = 2#4)

/-- R14, R95, R109, R41: `FLT` stays 0, 1 or 2 and every response stays legal, through every step.
The spec marks as its own: R14 (decision D13), R41 (decision D24), R95 (decision D13). -/
def Obligations.StepKeepsFaultRegisterLegal : Prop :=
  ∀ s t : State, FaultRegisterLegal s → ResponsesLegal s → step s = .next t → FaultRegisterLegal t ∧ ResponsesLegal t

/-- R12: the content invariant with its key. If the file holds the schedule of `last` (of no key while `RKV = 0`), then
after a step it holds the schedule of the `kin` of the most recent GENKEYS or ENCRYPT that completed; so whenever
`RKV = 1` it is the schedule of one key.
The spec marks as its own: R12 (derived). -/
def Obligations.StepKeepsKeyFileTheMostRecentSchedule : Prop :=
  (∀ (s t : State) (last : Option U64), s.rk = last.map keySchedule → step s = .next t →
    t.rk = (lastKeyAfterStep last s).map keySchedule) ∧
  (∀ s t : State, KeyFileIsSchedule s → step s = .next t → KeyFileIsSchedule t) ∧
  ∀ s : State, KeyFileIsSchedule s → s.rkv = 1#1 →
    ∃ k : U64, ∀ i : Fin 16, ∃ ks, s.rk = some ks ∧ ks.get i = (keySchedule k).get i

/-- R29, R113: the reset state meets every invariant and the launch premises.
The spec marks as its own: R29 (decision D14), R113 (derived). -/
def Obligations.ResetMeetsInvariants : Prop :=
  FaultRegisterLegal State.reset ∧ ResponsesLegal State.reset ∧ KeyFileIsSchedule State.reset ∧ LaunchPremises State.reset

/-- R11, R12, R13, R86: what a step does to the file. GENKEYS and ENCRYPT on a live core write all of it with the schedule of
their own `kin`; reset takes its values away; every other step, and any on a halted core but reset, leaves it.
The spec marks as its own: R12 (derived), R86 (decision D16). -/
def Obligations.KeyFileWrittenOnlyByGenkeysAndEncrypt : Prop :=
  (∀ (s : State) (r : Request) (rest : List HostEvent), s.incoming = .command r :: rest → Live s →
    (decode r.cmd = .ok .genkeys ∨ decode r.cmd = .ok .encrypt) →
    ∃ t, step s = .next t ∧ t.rk = some (keySchedule r.kin) ∧ t.rkv = 1#1) ∧
  (∀ s t u : State, exec .encrypt s = .next t → exec .genkeys s = .next u → t.rk = u.rk ∧ t.flt = u.flt) ∧
  ∀ (s t : State), step s = .next t → t.rk = s.rk ∨ (∃ rest, s.incoming = .reset :: rest ∧ t.rk = none) ∨
    ∃ r rest, s.incoming = .command r :: rest ∧ Live s ∧ (decode r.cmd = .ok .genkeys ∨ decode r.cmd = .ok .encrypt)

/-- R113: the reset state satisfies P1 and P2; every command preserves P2; a command answered with status 0 preserves
P1.
The spec marks as its own: R113 (derived). -/
def Obligations.CommandsKeepLaunchPremises : Prop :=
  LaunchPremises State.reset ∧
  ∀ (s t : State) (r : Request) (rest : List HostEvent), s.incoming = .command r :: rest → step s = .next t →
    (KeyFileIsSchedule s → KeyFileIsSchedule t) ∧
    (GoodState s → ∀ a, t.responses = s.responses ++ [a] → a.status = 0#4 → GoodState t)

/-- R114: a run of any commands from a good state ends good exactly when every response had status 0.
The spec marks as its own: R114 (decision D15). -/
def Obligations.GoodRunIffEveryStatusOk : Prop :=
  ∀ (rs : List Request) (s : State), GoodState s → s.incoming = rs.map HostEvent.command →
    ∃ (t : State) (new : List Response), Host.Core.run Sys2Proof.core rs.length s = .next t ∧ t.incoming = [] ∧
      t.responses = s.responses ++ new ∧ new.length = rs.length ∧ (GoodState t ↔ ∀ a ∈ new, a.status = 0#4)

/-- R34, R43: the frame of every command but GENKEYS and ENCRYPT: it leaves the key file, the port and all responses
already given, writes `FLT` only to raise a fault from 0, and answers once; GENKEYS and ENCRYPT write the file besides,
never `FLT`.
The spec marks as its own: R43 (decision D7, decision D11, decision D12), R98 (decision D13). -/
def Obligations.CommandFrame : Prop :=
  (∀ (i : Instr) (s t : State), i ≠ .genkeys → i ≠ .encrypt → exec i s = .next t →
    t.rk = s.rk ∧ t.kin = s.kin ∧ t.din = s.din ∧ t.incoming = s.incoming ∧
    (∃ a, t.responses = s.responses ++ [a]) ∧ (t.flt = s.flt ∨ s.flt = 0#4)) ∧
  (∀ (i : Instr) (s t : State), (∀ idx, i ≠ .rdkey idx) → WellFormed i = true → exec i s = .next t → t.flt = s.flt) ∧
  ∀ (i : Instr) (s t : State), i = .genkeys ∨ i = .encrypt → exec i s = .next t →
    t.kin = s.kin ∧ t.din = s.din ∧ t.incoming = s.incoming ∧ t.flt = s.flt ∧ ∃ a, t.responses = s.responses ++ [a]

/-- R42: operand bits a command's row does not name have no effect on the state or the response.
The spec marks as its own: R42 (decision D7, decision D8), R43 (decision D7, decision D11, decision D12). -/
def Obligations.UnusedOperandBitsHaveNoEffect : Prop :=
  ∀ (i : Instr) (s t : State) (kin' din' : U64), (s.kin ^^^ kin') &&& kinUsed i = 0#64 →
    (s.din ^^^ din') &&& dinUsed i = 0#64 → exec i s = .next t →
    exec i { s with kin := kin', din := din' } = .next { t with kin := kin', din := din' }

/-- R112: on a core that is not halted every command but RDKEY has its full meaning at once, whatever the round-key file held:
status 0, its result, and the file as GENKEYS and ENCRYPT write it, as every other command leaves it. After a GENKEYS or an
ENCRYPT `RKV` is 1 and every RDKEY reads the schedule of that command's `kin`; RDKEY on any written file reads it; before
that it raises RoundKeyInvalid, which halts the core. -/
def Obligations.CommandsCompleteWithoutPreparation : Prop :=
  (∀ (i : Instr) (s : State), Live s → WellFormed i = true → (∀ idx, i ≠ .rdkey idx) →
    exec i s = .next (answer { s with rk := fileAfter i s } 0#4 (resultOf i s.kin s.din))) ∧
  (∀ (i : Instr) (s : State) (rk' : Option RoundKeys), Live s → (∀ idx, i ≠ .rdkey idx) →
    ∃ t t' : State, exec i s = .next t ∧ exec i { s with rk := rk' } = .next t' ∧ t'.responses = t.responses ∧
      t'.flt = t.flt ∧ (i = .genkeys ∨ i = .encrypt → t'.rk = t.rk)) ∧
  (∀ s t : State, Live s → exec .genkeys s = .next t ∨ exec .encrypt s = .next t →
    t.rk = some (keySchedule s.kin) ∧ t.rkv = 1#1 ∧ ∀ idx : U4,
      exec (.rdkey idx) t = .next (answer t 0#4 (((keySchedule s.kin).getD idx.toNat 0#48).setWidth 64))) ∧
  (∀ (idx : U4) (s : State), Live s → s.rkv = 1#1 → ∃ ks, s.rk = some ks ∧
    exec (.rdkey idx) s = .next (answer s 0#4 ((ks.getD idx.toNat 0#48).setWidth 64))) ∧
  ∀ (idx : U4) (s : State), Live s → s.rkv = 0#1 →
    exec (.rdkey idx) s = .next (answer { s with flt := 2#4 } 2#4 0#64)

/-! ### The constant tables -/

/-- R21, R27: the tables' sizes; every entry in range; which values PC-1 and PC-2 omit and which half each half of PC-2
selects from; the rotation table and its sum.
The spec marks as its own: R21 (decision D7), R27 (general knowledge). -/
def Obligations.TablesHaveTheirShapes : Prop :=
  (tIP.entries.length = 64 ∧ tFP.entries.length = 64 ∧ tE.entries.length = 48 ∧ tP.entries.length = 32 ∧
    tPINV.entries.length = 32 ∧ tPC1.entries.length = 56 ∧ tPC2.entries.length = 48) ∧
  ((∀ t ∈ tIP.entries, t < 64) ∧ (∀ t ∈ tFP.entries, t < 64) ∧ (∀ t ∈ tE.entries, t < 32) ∧
    (∀ t ∈ tP.entries, t < 32) ∧ (∀ t ∈ tPINV.entries, t < 32) ∧ (∀ t ∈ tPC1.entries, t < 64) ∧
    ∀ t ∈ tPC2.entries, t < 56) ∧
  (∀ t ∈ [7, 15, 23, 31, 39, 47, 55, 63], t ∉ tPC1.entries) ∧
  (∀ t ∈ [8, 17, 21, 24, 34, 37, 42, 53], t ∉ tPC2.entries) ∧
  (∀ t ∈ tPC2.entries.take 24, t < 28) ∧ (∀ t ∈ tPC2.entries.drop 24, 28 ≤ t) ∧
  rot = [1, 1, 2, 2, 2, 2, 2, 2, 1, 2, 2, 2, 2, 2, 2, 1] ∧ rot.sum = 28

/-- R22, R25: the stored forms against the standard's printed lists: direct tables `T[i] = S - STD[W-1-i]`, complement
tables `T[i] = STD[i] - 1`, `T_PINV` the inverse table of `T_P`; and for IP, FP and E the two forms coincide, for P not.
The spec marks as its own: R22 (decision D3, decision D4, derived), R23 (general knowledge), R24 (general knowledge), R25 (general knowledge), R27 (general knowledge).
The model's own: log entry 10. -/
def Obligations.StoredFormsFollowTheStandard : Prop :=
  (∀ i < 64, tIP.entries.getD i 0 = 64 - stdIP.getD (63 - i) 0) ∧
  (∀ i < 64, tFP.entries.getD i 0 = 64 - stdFP.getD (63 - i) 0) ∧
  (∀ i < 48, tE.entries.getD i 0 = 32 - stdE.getD (47 - i) 0) ∧
  (∀ i < 32, tP.entries.getD i 0 = 32 - stdP.getD (31 - i) 0) ∧
  (∀ i < 32, tPINV.entries.getD (tP.entries.getD i 0) 0 = i) ∧
  (∀ i < 56, tPC1.entries.getD i 0 = stdPC1.getD i 0 - 1) ∧
  (∀ i < 48, tPC2.entries.getD i 0 = stdPC2.getD i 0 - 1) ∧
  tIP.entries = stdIP.map (· - 1) ∧ tFP.entries = stdFP.map (· - 1) ∧ tE.entries = stdE.map (· - 1) ∧
  tP.entries ≠ stdP.map (· - 1)

/-- R6, R22: applied in its own mode, each table computes the standard's function: output position `q`, counted 1-based
from the most significant end, takes input position `STD[q-1]`.
The spec marks as its own: R6 (general knowledge, decision D2), R22 (decision D3, decision D4, derived).
The model's own: log entry 10. -/
def Obligations.EngineComputesTheStandardFunctions : Prop :=
  (∀ x q, q < 64 → (initialPermutation x).getLsbD (64 - (q + 1)) = x.getLsbD (64 - stdIP.getD q 0)) ∧
  (∀ x q, q < 64 → (finalPermutation x).getLsbD (64 - (q + 1)) = x.getLsbD (64 - stdFP.getD q 0)) ∧
  (∀ x q, q < 48 → (expansion x).getLsbD (48 - (q + 1)) = x.getLsbD (32 - stdE.getD q 0)) ∧
  (∀ x q, q < 32 → (permute32 x).getLsbD (32 - (q + 1)) = x.getLsbD (32 - stdP.getD q 0)) ∧
  (∀ x q, q < 56 → (permutedChoice1 x).getLsbD (56 - (q + 1)) = x.getLsbD (64 - stdPC1.getD q 0)) ∧
  (∀ x q, q < 48 → (permutedChoice2 x).getLsbD (48 - (q + 1)) = x.getLsbD (56 - stdPC2.getD q 0))

/-- R26: SBox `k` is the standard's S(k+1), indexed by the group value: row the two outer bits, column the four inner.
The spec marks as its own: R26 (decision D5, general knowledge).
The model's own: log entry 10. -/
def Obligations.SBoxesAreTheStandardBoxes : Prop :=
  sboxes.length = 8 ∧ (∀ b ∈ sboxes, b.length = 64 ∧ ∀ v ∈ b, v < 16) ∧ ∀ (k : Fin 8) (g : U6), (sbox k.val g).toNat =
    (stdS.getD k.val []).getD (16 * (2 * (g.getLsbD 5).toNat + (g.getLsbD 0).toNat) + (g.extractLsb' 1 4).toNat) 0

/-- R28: the paired tables are mutual inverses, hence bijections; E, PC-1 and PC-2 are not. -/
def Obligations.PairedTablesAreInverse : Prop :=
  (∀ i < 64, tFP.entries.getD (tIP.entries.getD i 0) 0 = i ∧ tIP.entries.getD (tFP.entries.getD i 0) 0 = i) ∧
  (∀ i < 32, tPINV.entries.getD (tP.entries.getD i 0) 0 = i ∧ tP.entries.getD (tPINV.entries.getD i 0) 0 = i) ∧
  tIP.entries.Perm (List.range 64) ∧ tFP.entries.Perm (List.range 64) ∧
  tP.entries.Perm (List.range 32) ∧ tPINV.entries.Perm (List.range 32) ∧
  tIP.entries.getD 0 0 = 57 ∧ tFP.entries.getD 57 0 = 0 ∧ tP.entries.getD 0 0 = 7 ∧ tPINV.entries.getD 7 0 = 0 ∧
  ¬ tE.entries.Nodup ∧ (∃ j < 64, j ∉ tPC1.entries) ∧ ∃ j < 56, j ∉ tPC2.entries

/-! ### The engine -/

/-- R50: on any table that has `W` entries, each below `S`: direct mode puts input bit `T[i]` at output bit `i`,
complement-indexed mode puts input bit `S-1-T[i]` at output bit `W-1-i`, and a live command over the table answers that;
with an entry out of range the command raises TableIndexOutOfRange and gives no partial result. -/
def Obligations.EngineFollowsItsFormulas : Prop :=
  (∀ (W S : Nat) (T : PermTable W S) (x : BitVec S), T.entries.length = W → (∀ t ∈ T.entries, t < S) →
    (∀ i, i < W →
      (bpe T .direct x).getLsbD i = x.getLsbD (T.entries.getD i 0) ∧
      (bpe T .complement x).getLsbD (W - 1 - i) = x.getLsbD (S - 1 - T.entries.getD i 0)) ∧
    ∀ (mode : Mode) (s : State), Live s →
      permuteCommand T mode x s = .next (answer s 0#4 ((bpe T mode x).setWidth 64))) ∧
  ∀ (W S : Nat) (T : PermTable W S) (mode : Mode) (x : BitVec S) (s : State), Live s → (∃ t ∈ T.entries, S ≤ t) →
    permuteCommand T mode x s = .next (answer { s with flt := 3#4 } 3#4 0#64)

/-- R109: a command over a table with an entry out of range takes code 3; every entry of the seven tables is in range, so
no command and no step can make `FLT` 3. -/
def Obligations.TableFaultIsRaisedAndUnreachable : Prop :=
  (∀ (W S : Nat) (T : PermTable W S) (mode : Mode) (x : BitVec S) (s : State), Live s → (∃ t ∈ T.entries, S ≤ t) →
    ∃ t : State, permuteCommand T mode x s = .next t ∧ t.flt = 3#4) ∧
  (∀ (i : Instr) (s t : State), s.flt ≠ 3#4 → exec i s = .next t → t.flt ≠ 3#4) ∧
  ∀ s t : State, s.flt ≠ 3#4 → step s = .next t → t.flt ≠ 3#4

/-- R51 (b), (d): the engine is linear over exclusive OR, and an input bit that no entry names has no effect.
The spec marks as its own: R51 (derived). -/
def Obligations.EngineIsLinearAndIgnoresUnnamedBits : Prop :=
  (∀ (W S : Nat) (T : PermTable W S) (m : Mode) (a b : BitVec S), bpe T m (a ^^^ b) = bpe T m a ^^^ bpe T m b) ∧
  (∀ (W S : Nat) (T : PermTable W S) (m : Mode), bpe T m (0#S) = 0#W) ∧
  (∀ (W S : Nat) (T : PermTable W S) (a b : BitVec S), (∀ n, n ∈ T.entries → a.getLsbD n = b.getLsbD n) →
    bpe T .direct a = bpe T .direct b) ∧
  ∀ (W S : Nat) (T : PermTable W S) (a b : BitVec S),
    (∀ n, n ∈ T.entries → a.getLsbD (S - 1 - n) = b.getLsbD (S - 1 - n)) → bpe T .complement a = bpe T .complement b

/-- R51 (e): the complement mode of `T` is the direct mode of `T'[j] = S-1-T[W-1-j]`; the modes agree on IP, FP and E and
differ on P, PINV, PC1 and PC2.
The spec marks as its own: R51 (derived), R22 (decision D3, decision D4, derived). -/
def Obligations.EngineModesAreRelated : Prop :=
  (∀ (W S : Nat) (T T' : PermTable W S) (x : BitVec S), T.entries.length = W → T'.entries.length = W →
    (∀ j, j < W → T'.entries.getD j 0 = S - 1 - T.entries.getD (W - 1 - j) 0) →
    bpe T .complement x = bpe T' .direct x) ∧
  (∀ x, bpe tIP .complement x = bpe tIP .direct x) ∧ (∀ x, bpe tFP .complement x = bpe tFP .direct x) ∧
  (∀ x, bpe tE .complement x = bpe tE .direct x) ∧ (∃ x, bpe tP .complement x ≠ bpe tP .direct x) ∧
  (∃ x, bpe tPINV .complement x ≠ bpe tPINV .direct x) ∧ (∃ x, bpe tPC1 .complement x ≠ bpe tPC1 .direct x) ∧
  ∃ x, bpe tPC2 .complement x ≠ bpe tPC2 .direct x

/-- R51 (c): a table in which every value 0..S-1 occurs exactly once is a bijection that preserves the number of set bits,
in both modes; IP, FP, P and PINV are such tables.
The spec marks as its own: R51 (derived). -/
def Obligations.PermutationTablesAreBijections : Prop :=
  (∀ (n : Nat) (T : PermTable n n) (m : Mode), T.entries.Perm (List.range n) →
    Function.Bijective (bpe T m) ∧ ∀ x, bitCount (bpe T m x) = bitCount x) ∧
  tIP.entries.Perm (List.range 64) ∧ tFP.entries.Perm (List.range 64) ∧
  tP.entries.Perm (List.range 32) ∧ tPINV.entries.Perm (List.range 32)

/-! ### The permutation commands -/

/-- R52: IP. Its word, its effect on every live core, its corner cases and its example. -/
def Obligations.IpPermutesTheBlock : Prop :=
  encode .ip = 0x00#8 ∧ decode 0x00#8 = .ok .ip ∧ SelMustBeZero 0x0#4 ∧
  (∀ s : State, Live s → exec .ip s = .next (answer s 0#4 (initialPermutation s.din)) ∧
    Selects (initialPermutation s.din) s.din 64 fun i => tIP.entries.getD i 0) ∧
  initialPermutation 0#64 = 0#64 ∧ initialPermutation 0xFFFFFFFFFFFFFFFF#64 = 0xFFFFFFFFFFFFFFFF#64 ∧
  (∀ n < 64, ∃ m < 64, initialPermutation (BitVec.twoPow 64 n) = BitVec.twoPow 64 m) ∧
  (∀ a < 8, ∀ b < 8, tIP.entries.getD (8 * a + b) 0 / 8 = 7 - b ∧ (tIP.entries.getD (8 * a + b) 0 % 2 = 0 ↔ 4 ≤ a)) ∧
  initialPermutation 0x00000000000000FF#64 = 0x8080808080808080#64 ∧
  initialPermutation 0x1122334455667788#64 = 0x7855785580668066#64

/-- R53: FP. -/
def Obligations.FpPermutesTheBlock : Prop :=
  encode .fp = 0x01#8 ∧ decode 0x01#8 = .ok .fp ∧ SelMustBeZero 0x1#4 ∧
  (∀ s : State, Live s → exec .fp s = .next (answer s 0#4 (finalPermutation s.din)) ∧
    Selects (finalPermutation s.din) s.din 64 fun i => tFP.entries.getD i 0) ∧
  finalPermutation 0#64 = 0#64 ∧ finalPermutation 0xFFFFFFFFFFFFFFFF#64 = 0xFFFFFFFFFFFFFFFF#64 ∧
  (∀ v, finalPermutation (initialPermutation v) = v) ∧
  finalPermutation 0xe504e956e598d8fe#64 = 0xc403d32e2bc6cfee#64 ∧
  finalPermutation 0x0000000000000001#64 = 0x0200000000000000#64

/-- R54: PBOX. The result is on the low 32 bits, `din[63:32]` has no effect (`Selects` names only `din[31:0]`). -/
def Obligations.PboxPermutesTheLowHalf : Prop :=
  encode .pbox = 0x02#8 ∧ decode 0x02#8 = .ok .pbox ∧ SelMustBeZero 0x2#4 ∧
  (∀ s : State, Live s → exec .pbox s = .next (answer s 0#4 ((permute32 (s.din.setWidth 32)).setWidth 64)) ∧
    Selects ((permute32 (s.din.setWidth 32)).setWidth 64) s.din 32 fun i => tP.entries.getD i 0) ∧
  (∀ i < 32, tP.entries.getD i 0 < 32) ∧
  permute32 0#32 = 0#32 ∧ permute32 0xFFFFFFFF#32 = 0xFFFFFFFF#32 ∧ permute32 0x00000001#32 = 0x00000800#32 ∧
  permute32 0x80000000#32 = 0x00800000#32 ∧ permute32 0x12345678#32 = 0x6e34140e#32

/-- R55: PBOXINV. -/
def Obligations.PboxinvPermutesTheLowHalf : Prop :=
  encode .pboxinv = 0x03#8 ∧ decode 0x03#8 = .ok .pboxinv ∧ SelMustBeZero 0x3#4 ∧
  (∀ s : State, Live s → exec .pboxinv s = .next (answer s 0#4 ((permuteInverse32 (s.din.setWidth 32)).setWidth 64)) ∧
    Selects ((permuteInverse32 (s.din.setWidth 32)).setWidth 64) s.din 32 fun i => tPINV.entries.getD i 0) ∧
  (∀ v, permuteInverse32 (permute32 v) = v) ∧
  permuteInverse32 0x00000800#32 = 0x00000001#32 ∧ permuteInverse32 0x00000001#32 = 0x00000080#32 ∧
  permuteInverse32 0x12345678#32 = 0x250c4e74#32 ∧ permuteInverse32 0x78557855#32 = 0x076e59c9#32

/-- R56: EXPAND, with its closed form: group `j` is input bits `4j-1` to `4j+4` modulo 32.
The spec marks as its own: R56 (decision D12). -/
def Obligations.ExpandSelectsOverlappingGroups : Prop :=
  encode .expand = 0x04#8 ∧ decode 0x04#8 = .ok .expand ∧ SelMustBeZero 0x4#4 ∧
  (∀ s : State, Live s → exec .expand s = .next (answer s 0#4 ((expansion (s.din.setWidth 32)).setWidth 64)) ∧
    Selects ((expansion (s.din.setWidth 32)).setWidth 64) s.din 48 fun i => tE.entries.getD i 0) ∧
  (∀ (x : U32) (j m : Nat), j < 8 → m < 6 → (expansion x).getLsbD (6 * j + m) = x.getLsbD ((4 * j + 31 + m) % 32)) ∧
  expansion 0#32 = 0#48 ∧ expansion 0xFFFFFFFF#32 = 0xFFFFFFFFFFFF#48 ∧ expansion 0x00000001#32 = 0x800000000002#48 ∧
  expansion 0x80000000#32 = 0x400000000001#48 ∧ expansion 0x12345678#32 = 0x0a41a82ac3f0#48

/-- R57: PC1, on `din`, complement-indexed; the eight parity bits are dropped.
The spec marks as its own: R57 (decision D21). -/
def Obligations.Pc1SelectsTheKeyBits : Prop :=
  encode .pc1 = 0x05#8 ∧ decode 0x05#8 = .ok .pc1 ∧ SelMustBeZero 0x5#4 ∧
  (∀ s : State, Live s → exec .pc1 s = .next (answer s 0#4 ((permutedChoice1 s.din).setWidth 64)) ∧
    SelectsFromTop ((permutedChoice1 s.din).setWidth 64) s.din 56 fun i => 63 - tPC1.entries.getD i 0) ∧
  (∀ k k' : U64, SameEffectiveKey k k' → permutedChoice1 k = permutedChoice1 k') ∧
  permutedChoice1 0x0101010101010101#64 = 0#56 ∧ permutedChoice1 0xFEFEFEFEFEFEFEFE#64 = 0xFFFFFFFFFFFFFF#56 ∧
  permutedChoice1 0x3032343234363236#64 = 0x0000fffeab400f#56 ∧
  permutedChoice1 0x3133353335373337#64 = 0x0000fffeab400f#56 ∧
  permutedChoice1 0x8000000000000000#64 = 0x01000000000000#56 ∧
  permutedChoice1 0x133457799BBCDFF1#64 = 0xf0ccaaf556678f#56

/-- R58: PC2, complement-indexed; which input bits are dropped, and that each output half depends on one input half. -/
def Obligations.Pc2SelectsTheRoundKeyBits : Prop :=
  encode .pc2 = 0x06#8 ∧ decode 0x06#8 = .ok .pc2 ∧ SelMustBeZero 0x6#4 ∧
  (∀ s : State, Live s → exec .pc2 s = .next (answer s 0#4 ((permutedChoice2 (s.din.setWidth 56)).setWidth 64)) ∧
    SelectsFromTop ((permutedChoice2 (s.din.setWidth 56)).setWidth 64) s.din 48 fun i => 55 - tPC2.entries.getD i 0) ∧
  (∀ x y : U56, (∀ i, i ∉ [47, 38, 34, 31, 21, 18, 13, 2] → x.getLsbD i = y.getLsbD i) →
    permutedChoice2 x = permutedChoice2 y) ∧
  (∀ x y : U56, x.extractLsb' 28 28 = y.extractLsb' 28 28 →
    (permutedChoice2 x).extractLsb' 24 24 = (permutedChoice2 y).extractLsb' 24 24) ∧
  (∀ x y : U56, x.extractLsb' 0 28 = y.extractLsb' 0 28 →
    (permutedChoice2 x).extractLsb' 0 24 = (permutedChoice2 y).extractLsb' 0 24) ∧
  permutedChoice2 0x00800000000000#56 = 0#48 ∧ permutedChoice2 0xFFFFFFF0000000#56 = 0xffffff000000#48 ∧
  permutedChoice2 0x0000000FFFFFFF#56 = 0x000000ffffff#48 ∧ permutedChoice2 0x00000000000001#56 = 0x000000000100#48 ∧
  permutedChoice2 0x0001ffed56801f#56 = 0x502cacc603c7#48

/-- R59: BPERM, for each of the fourteen pairs of a table and a mode; table id 7 raises IllegalCommand; its examples.
The spec marks as its own: R59 (decision D12, decision D26), R44 (decision D7), R46 (decision D9).
The model's own: log entry 7. -/
def Obligations.BpermAppliesTheChosenTable : Prop :=
  (∀ (tsel : BitVec 3) (mode : Mode), encode (.bperm tsel mode) =
    (match mode with | .direct => 0x00#8 | .complement => 0x80#8) ||| (tsel.setWidth 8 <<< 4) ||| 0x07#8) ∧
  (∀ (tsel : BitVec 3) (s : State), Live s → tsel ≠ 7#3 → ∃ v : U64,
    exec (.bperm tsel .direct) s = .next (answer s 0#4 v) ∧
    Selects v s.din (bpermTable tsel).1 fun i => (bpermTable tsel).2.2.getD i 0) ∧
  (∀ (tsel : BitVec 3) (s : State), Live s → tsel ≠ 7#3 → ∃ v : U64,
    exec (.bperm tsel .complement) s = .next (answer s 0#4 v) ∧
    SelectsFromTop v s.din (bpermTable tsel).1 fun i => (bpermTable tsel).2.1 - 1 - (bpermTable tsel).2.2.getD i 0) ∧
  (∀ (mode : Mode) (s : State), Live s → exec (.bperm 7#3 mode) s = .next (answer { s with flt := 1#4 } 1#4 0#64)) ∧
  bpe tP .direct 0x00000001#32 = 0x00000800#32 ∧ bpe tP .complement 0x00000001#32 = 0x00000100#32 ∧
  bpe tPINV .complement 0x00000001#32 = 0x00008000#32 ∧ bpe tPC1 .direct 0x0101010101010101#64 = 0x000000000000ff#56 ∧
  bpe tPC1 .direct 0x3032343234363236#64 = 0x0ffff000b4ea00#56 ∧ bpe tPC2 .direct 0x00000000000001#56 = 0x000000000010#48 ∧
  bpe tIP .complement 0x1122334455667788#64 = 0x7855785580668066#64 ∧ decode 0x77#8 = .error .reservedTable ∧
  (∀ s : State, exec (.bperm 0#3 .complement) s = exec .ip s ∧ exec (.bperm 1#3 .complement) s = exec .fp s ∧
    exec (.bperm 2#3 .complement) s = exec .expand s) ∧
  (∃ x, bpe tP .complement x ≠ permute32 x) ∧ (∃ x, bpe tPINV .complement x ≠ permuteInverse32 x) ∧
  (∃ x, bpe tPC1 .direct x ≠ permutedChoice1 x) ∧ ∃ x, bpe tPC2 .direct x ≠ permutedChoice2 x

/-- R60: the inverse properties of the two pairs. -/
def Obligations.PermutationPairsAreInverse : Prop :=
  (∀ v : U64, finalPermutation (initialPermutation v) = v) ∧ (∀ v : U64, initialPermutation (finalPermutation v) = v) ∧
  (∀ v : U32, permuteInverse32 (permute32 v) = v) ∧ (∀ v : U32, permute32 (permuteInverse32 v) = v) ∧
  initialPermutation 0x0000000000000001#64 = 0x0000008000000000#64 ∧
  finalPermutation 0x0000008000000000#64 = 0x0000000000000001#64

/-- R49: seven named commands are each equal in effect to one BPERM form, in every state.
The spec marks as its own: R49 (derived). -/
def Obligations.NamedCommandsAreBpermForms : Prop :=
  ∀ s : State, exec .ip s = exec (.bperm 0#3 .direct) s ∧ exec .fp s = exec (.bperm 1#3 .direct) s ∧
    exec .pbox s = exec (.bperm 3#3 .direct) s ∧ exec .pboxinv s = exec (.bperm 4#3 .direct) s ∧
    exec .expand s = exec (.bperm 2#3 .direct) s ∧ exec .pc1 s = exec (.bperm 5#3 .complement) s ∧
    exec .pc2 s = exec (.bperm 6#3 .complement) s

/-! ### The key schedule -/

/-- R66, and `rol28` of spec/00_scope.md 5.2: the schedule's rounds, for any two sequences of halves that follow them.
The spec marks as its own: R66 (decision D25). -/
def Obligations.KeyScheduleFollowsItsRounds : Prop :=
  (∀ (v : U28) (n i : Nat), n = 1 ∨ n = 2 → i < 28 → (rol28 v n).getLsbD ((i + n) % 28) = v.getLsbD i) ∧
  ∀ (key : U64) (C D : Nat → U28), C 0 = (permutedChoice1 key).extractLsb' 28 28 →
    D 0 = (permutedChoice1 key).extractLsb' 0 28 →
    (∀ r, 1 ≤ r → r ≤ 16 → C r = rol28 (C (r - 1)) (rot.getD (r - 1) 0) ∧ D r = rol28 (D (r - 1)) (rot.getD (r - 1) 0)) →
    ∀ r, 1 ≤ r → r ≤ 16 → (keySchedule key).getD (r - 1) 0#48 = permutedChoice2 (C r ++ D r)

/-- R67: GENKEYS writes the schedule of `kin` into all sixteen registers, sets `RKV`, answers 0; its corner cases. -/
def Obligations.GenkeysWritesTheSchedule : Prop :=
  encode .genkeys = 0x08#8 ∧ decode 0x08#8 = .ok .genkeys ∧ SelMustBeZero 0x8#4 ∧
  (∀ s : State, Live s → exec .genkeys s = .next (answer { s with rk := some (keySchedule s.kin) } 0#4 0#64) ∧
    (answer { s with rk := some (keySchedule s.kin) } 0#4 0#64).rkv = 1#1) ∧
  keySchedule 0#64 = Vector.replicate 16 0#48 ∧ keySchedule 0x0101010101010101#64 = Vector.replicate 16 0#48 ∧
  keySchedule 0xFFFFFFFFFFFFFFFF#64 = Vector.replicate 16 0xFFFFFFFFFFFF#48 ∧
  keySchedule 0xFEFEFEFEFEFEFEFE#64 = Vector.replicate 16 0xFFFFFFFFFFFF#48 ∧
  (∀ k k' : U64, SameEffectiveKey k k' → keySchedule k = keySchedule k') ∧
  (keySchedule 0x3032343234363236#64).getD 0 0#48 = 0x502cacc603c7#48 ∧
  (keySchedule 0x3032343234363236#64).getD 15 0#48 = 0x512c8c372352#48

/-- R68 (a): the cumulative rotations, so that the halves return after round 16 and `K[15]` is PC2 of the initial
halves; (b) which half of a round key depends on which half; (d) complementing the key complements every round key.
The spec marks as its own: R68 (derived). -/
def Obligations.KeyScheduleRotationsReturnAndComplement : Prop :=
  (∀ (key : U64) (r i : Nat), r ≤ 16 → i < 28 →
    (keyHalves key r).1.getLsbD ((i + cumulativeRotation.getD r 0) % 28) = (keyHalves key 0).1.getLsbD i ∧
    (keyHalves key r).2.getLsbD ((i + cumulativeRotation.getD r 0) % 28) = (keyHalves key 0).2.getLsbD i) ∧
  (∀ key : U64, keyHalves key 16 = keyHalves key 0 ∧
    (keySchedule key).getD 15 0#48 = permutedChoice2 ((keyHalves key 0).1 ++ (keyHalves key 0).2)) ∧
  (∀ (k k' : U64) (i : Fin 16), (keyHalves k 0).1 = (keyHalves k' 0).1 →
    ((keySchedule k).get i).extractLsb' 24 24 = ((keySchedule k').get i).extractLsb' 24 24) ∧
  (∀ (k k' : U64) (i : Fin 16), (keyHalves k 0).2 = (keyHalves k' 0).2 →
    ((keySchedule k).get i).extractLsb' 0 24 = ((keySchedule k').get i).extractLsb' 0 24) ∧
  ∀ (key : U64) (i : Fin 16), (keySchedule (~~~key)).get i = ~~~((keySchedule key).get i)

/-- R68 (c): each round key is a selection of 48 different bits of the 56 effective key bits.
The spec marks as its own: R68 (derived). -/
def Obligations.RoundKeyUsesFortyEightKeyBits : Prop :=
  ∀ i : Fin 16, ∃ src : List Nat, src.length = 48 ∧ src.Nodup ∧ (∀ j ∈ src, j < 64 ∧ j % 8 ≠ 0) ∧
    ∀ (key : U64) (b : Nat), b < 48 → ((keySchedule key).get i).getLsbD b = key.getLsbD (src.getD b 0)

/-- R70, R97: RDKEY returns `RK[idx]` zero-extended once the file was written, and raises RoundKeyInvalid while `RKV = 0`,
for any index; every index is legal.
The spec marks as its own: R70 (decision D11), R97 (decision D10). -/
def Obligations.RdkeyReadsTheFileOrRaisesInvalid : Prop :=
  (∀ idx : U4, encode (.rdkey idx) = idx ++ 0x9#4 ∧ decode (idx ++ 0x9#4) = .ok (.rdkey idx)) ∧
  (∀ (idx : U4) (s : State) (ks : RoundKeys), Live s → s.rk = some ks →
    exec (.rdkey idx) s = .next (answer s 0#4 ((ks.getD idx.toNat 0#48).setWidth 64))) ∧
  (∀ (idx : U4) (s : State), Live s → s.rkv = 0#1 →
    exec (.rdkey idx) s = .next (answer { s with flt := 2#4 } 2#4 0#64)) ∧
  (∀ (idx : U4) (s t : State), Live s → exec .encrypt s = .next t →
    exec (.rdkey idx) t = .next (answer t 0#4 (((keySchedule s.kin).getD idx.toNat 0#48).setWidth 64))) ∧
  (keySchedule 0x133457799BBCDFF1#64).getD 0 0#48 = 0x1b02effc7072#48 ∧
  (keySchedule 0x133457799BBCDFF1#64).getD 15 0#48 = 0xcb3d8b0e17f5#48

/-- R69: on a live core, whatever came before, GENKEYS k then RDKEY.i answers `KS(k)[i]`; repeating GENKEYS k changes
nothing but the response. R117, R118: an ENCRYPT k2 between them makes RDKEY.i answer `KS(k2)[i]`, with status 0.
The spec marks as its own: R118 (derived). -/
def Obligations.RdkeyAnswersTheMostRecentSchedule : Prop :=
  ∀ (s : State) (k k2 x y z b : U64) (idx : U4), Live s →
    (s.incoming = [.command ⟨0x08#8, k, x⟩, .command ⟨idx ++ 0x9#4, y, z⟩] →
      ∃ t : State, Host.Core.run Sys2Proof.core 2 s = .next t ∧ t.responses = s.responses ++
        [⟨0#4, 0#64⟩, ⟨0#4, ((keySchedule k).get idx.toFin).setWidth 64⟩]) ∧
    (s.incoming = [.command ⟨0x08#8, k, x⟩, .command ⟨0x08#8, k, x⟩] →
      ∃ t u : State, step s = .next t ∧ step t = .next u ∧ u.rk = t.rk ∧ u.flt = t.flt) ∧
    (s.incoming = [.command ⟨0x08#8, k, x⟩, .command ⟨0x0C#8, k2, b⟩, .command ⟨idx ++ 0x9#4, y, z⟩] →
      ∃ t : State, Host.Core.run Sys2Proof.core 3 s = .next t ∧ t.rk = some (keySchedule k2) ∧ t.responses = s.responses ++
        [⟨0#4, 0#64⟩, ⟨0#4, encryptBlock k2 b⟩, ⟨0#4, ((keySchedule k2).get idx.toFin).setWidth 64⟩])

/-! ### The Feistel round -/

/-- R75 to R78: FEISTEL and its steps: expand, mix, group `i` through SBox `7-i` by its value, nibble `i` at
bits [4i+3:4i], XOR with LInverse, permute.
The spec marks as its own: R75 (decision D12), R77 (decision D5), R78 (decision D25). -/
def Obligations.FeistelFollowsItsSteps : Prop :=
  encode .feistel = 0x0A#8 ∧ decode 0x0A#8 = .ok .feistel ∧ SelMustBeZero 0xA#4 ∧
  (∀ s : State, Live s → exec .feistel s = .next (answer s 0#4
    ((feistelF (s.kin.setWidth 48) (s.din.setWidth 32) ((s.din >>> 32).setWidth 32)).setWidth 64))) ∧
  (∀ (k : U48) (r linv : U32), ∃ sub : U32, feistelF k r linv = permute32 (sub ^^^ linv) ∧
    ∀ i < 8, (sub.extractLsb' (4 * i) 4).toNat =
      (sboxes.getD (7 - i) []).getD (((expansion r ^^^ k) >>> (6 * i)) &&& 0x3F#48).toNat 0) ∧
  expansion 0x80668066#32 = 0x40030d40030d#48 ∧ expansion 0x80668066#32 ^^^ 0x502cacc603c7#48 = 0x102fa18600ca#48 ∧
  substitute 0x102fa18600ca#48 = 0xd173b90f#32 ∧ 0xd173b90f#32 ^^^ 0x076e59c9#32 = 0xd61de0c6#32 ∧
  feistelF 0x502cacc603c7#48 0x80668066#32 0x076e59c9#32 = 0xc59690f3#32

/-- R79: with `LInverse = PBOXINV(L)` the round's output already contains the XOR with the left half; with `LInverse = 0` it
is `PBOX(s)`.
The spec marks as its own: R79 (derived). -/
def Obligations.FeistelAbsorbsTheLeftHalf : Prop :=
  ∀ (k : U48) (r l : U32),
    feistelF k r (permuteInverse32 l) = permute32 (substitute (expansion r ^^^ k)) ^^^ l ∧
    feistelF k r 0#32 = permute32 (substitute (expansion r ^^^ k))

/-- R80 (a) to (d).
The spec marks as its own: R80 (derived). -/
def Obligations.FeistelLaws : Prop :=
  (feistelF 0#48 0#32 0#32 = 0xd8d8dbbc#32 ∧ substitute 0#48 = 0xefa72c4d#32 ∧
    (List.range 8).map (fun i => (nibble 0#48 i).toNat) = [13, 4, 12, 2, 7, 10, 15, 14]) ∧
  (∀ (k k' : U48) (r r' l : U32), expansion r ^^^ k = expansion r' ^^^ k' → feistelF k r l = feistelF k' r' l) ∧
  (∀ l : U32, feistelF 0xFFFFFFFFFFFF#48 0#32 l = permute32 (0xd9ce3dcb#32 ^^^ l) ∧
    feistelF 0#48 0xFFFFFFFF#32 l = permute32 (0xd9ce3dcb#32 ^^^ l) ∧
    feistelF 0xFFFFFFFFFFFF#48 0xFFFFFFFF#32 l = feistelF 0#48 0#32 l) ∧
  (∀ (k : U48) (r a b : U32), feistelF k r (a ^^^ b) = feistelF k r a ^^^ permute32 b) ∧
  feistelF 0#48 0#32 0xFFFFFFFF#32 = 0x27272443#32 ∧ 0x27272443#32 = ~~~0xd8d8dbbc#32 ∧
  (∀ (k k' : U48) (r l : U32) (i : Nat), i < 8 → (∀ b, b / 6 ≠ i → k.getLsbD b = k'.getLsbD b) →
    (∀ m, m < 8 → m ≠ i → nibble (expansion r ^^^ k) m = nibble (expansion r ^^^ k') m) ∧
    ∀ j, j < 32 → tP.entries.getD j 0 / 4 ≠ i → (feistelF k r l).getLsbD j = (feistelF k' r l).getLsbD j) ∧
  feistelF 0x00000000003F#48 0#32 0#32 = 0xd8dadb9c#32 ∧ feistelF 0xFC0000000000#48 0#32 0#32 = 0xd8d8d9be#32 ∧
  feistelF 0x000000000001#48 0#32 0#32 = 0xd0d8db9c#32

/-! ### The cipher -/

/-- R88, R89: ISOROUND is round 1's data path under the supplied subkey and leaves all state; under the first round key
of `k` it is the right half of the cipher state after ENCRYPT's first round.
The spec marks as its own: R88 (decision D18, decision D16), R89 (derived). -/
def Obligations.IsoroundIsRoundOne : Prop :=
  encode .isoround = 0x0B#8 ∧ decode 0x0B#8 = .ok .isoround ∧ SelMustBeZero 0xB#4 ∧
  (∀ s : State, Live s → exec .isoround s = .next (answer s 0#4 ((feistelF (s.kin.setWidth 48)
    ((initialPermutation s.din).setWidth 32)
    (permuteInverse32 ((initialPermutation s.din >>> 32).setWidth 32))).setWidth 64))) ∧
  (∀ (k b : U64), isolatedRound ((keySchedule k).get 0) b =
    (cipherState (keySchedule k) (initialPermutation b) 1).setWidth 32) ∧
  cipherState (keySchedule 0x3032343234363236#64) (initialPermutation 0x1122334455667788#64) 1 = 0x80668066c59690f3#64 ∧
  isolatedRound 0#48 0#64 = 0xd8d8dbbc#32 ∧ isolatedRound 0xFFFFFFFFFFFF#48 0#64 = 0x38dbf9cb#32 ∧
  isolatedRound 0#48 0xFFFFFFFFFFFFFFFF#64 = 0xc7240634#32 ∧
  isolatedRound 0x502cacc603c7#48 0x1122334455667788#64 = 0xc59690f3#32

/-- R85, R90: ENCRYPT writes the schedule of `kin` into the file and sets `RKV`, and answers FP
of the sixteenth of a sequence of states that follows the rounds with the keys just written; the known answer. -/
def Obligations.EncryptFollowsItsSteps : Prop :=
  encode .encrypt = 0x0C#8 ∧ decode 0x0C#8 = .ok .encrypt ∧ SelMustBeZero 0xC#4 ∧
  (∀ s : State, Live s → ∃ (st : Nat → U64) (ks : RoundKeys), ks = keySchedule s.kin ∧
    exec .encrypt s = .next (answer { s with rk := some ks } 0#4 (finalPermutation (st 16))) ∧
    (answer { s with rk := some ks } 0#4 (finalPermutation (st 16))).rkv = 1#1 ∧
    st 0 = initialPermutation s.din ∧
    (∀ round, 1 ≤ round → round ≤ 16 →
      let l : U32 := (st (round - 1) >>> 32).setWidth 32
      let r : U32 := (st (round - 1)).setWidth 32
      let newR : U32 := feistelF (ks.getD (round - 1) 0#48) r (permuteInverse32 l)
      (round ≤ 15 → st round = r ++ newR) ∧ (round = 16 → st round = newR ++ r))) ∧
  encryptBlock 0x3032343234363236#64 0x1122334455667788#64 = 0xc403d32e2bc6cfee#64

/-- R87: ENCRYPT is the DES standard's Feistel network: `L_r = R_{r-1}`, `R_r = L_{r-1} ^ f(R_{r-1}, K[r-1])` with
`f = PBOX(S(EXPAND(R) ^ K))`, the state after rounds 1 to 15 is `L_r ‖ R_r`, and the result is `FP(R_16 ‖ L_16)`.
The spec marks as its own: R87 (derived). -/
def Obligations.EncryptIsTheStandardFeistelNetwork : Prop :=
  ∀ (key block : U64) (L R : Nat → U32), L 0 ++ R 0 = initialPermutation block →
    (∀ r, 1 ≤ r → r ≤ 16 → L r = R (r - 1) ∧
      R r = L (r - 1) ^^^
        permute32 (substitute (expansion (R (r - 1)) ^^^ (keySchedule key).getD (r - 1) 0#48))) →
    (∀ r, r ≤ 15 → cipherState (keySchedule key) (initialPermutation block) r = L r ++ R r) ∧
    (∀ r, 1 ≤ r → r ≤ 16 →
      R r = feistelF ((keySchedule key).getD (r - 1) 0#48) (R (r - 1)) (permuteInverse32 (L (r - 1)))) ∧
    encryptBlock key block = finalPermutation (R 16 ++ L 16)

/-- R91 (a): the result does not depend on the eight parity bits of the key.
The spec marks as its own: R91 (derived). -/
def Obligations.EncryptIgnoresParityBits : Prop :=
  (∀ k k' b : U64, SameEffectiveKey k k' → encryptBlock k b = encryptBlock k' b) ∧
  encryptBlock 0x3133353335373337#64 0x1122334455667788#64 = 0xc403d32e2bc6cfee#64

/-- R91 (b): for a fixed key, ENCRYPT is a bijection on blocks.
The spec marks as its own: R91 (derived). -/
def Obligations.EncryptIsABijectionOnBlocks : Prop := ∀ key : U64, Function.Bijective (encryptBlock key)

/-- R91 (c): complementing key and block complements the result.
The spec marks as its own: R91 (derived). -/
def Obligations.EncryptComplementation : Prop :=
  (∀ k b : U64, encryptBlock (~~~k) (~~~b) = ~~~(encryptBlock k b)) ∧
  encryptBlock 0#64 0#64 = 0x8ca64de9c1b123a7#64 ∧
  encryptBlock 0xFFFFFFFFFFFFFFFF#64 0xFFFFFFFFFFFFFFFF#64 = 0x7359b2163e4edc58#64

/-! ### Around the core -/

/-- R48: the triple of every form of assembler line (its `k=` on `kin`, its `d=` on `din`, FEISTEL's `din` = `linv ‖ r`, an
unused port 0); its word decodes to the command it names; and the examples.
The spec marks as its own: R48 (decision D23). -/
def Obligations.AssemblerLinesEncodeTheirCommands : Prop :=
  (∀ l : AsmLine, WellFormed (asmInstr l) = true → decode (assemble l).cmd = .ok (asmInstr l)) ∧
  (∀ l : AsmLine, kinUsed (asmInstr l) = 0#64 → (assemble l).kin = 0#64) ∧
  (∀ l : AsmLine, dinUsed (asmInstr l) = 0#64 → WellFormed (asmInstr l) = true → (assemble l).din = 0#64) ∧
  (∀ d : U64, assemble (.ip d) = ⟨0x00#8, 0#64, d⟩ ∧ assemble (.fp d) = ⟨0x01#8, 0#64, d⟩ ∧
    assemble (.pbox d) = ⟨0x02#8, 0#64, d⟩ ∧ assemble (.pboxinv d) = ⟨0x03#8, 0#64, d⟩ ∧
    assemble (.expand d) = ⟨0x04#8, 0#64, d⟩ ∧ assemble (.pc1 d) = ⟨0x05#8, 0#64, d⟩ ∧
    assemble (.pc2 d) = ⟨0x06#8, 0#64, d⟩) ∧
  (∀ (tsel : BitVec 3) (d : U64), assemble (.bperm tsel .direct d) = ⟨0#1 ++ tsel ++ 0x7#4, 0#64, d⟩ ∧
    assemble (.bperm tsel .complement d) = ⟨1#1 ++ tsel ++ 0x7#4, 0#64, d⟩) ∧
  (∀ k : U64, assemble (.genkeys k) = ⟨0x08#8, k, 0#64⟩) ∧
  (∀ idx : U4, assemble (.rdkey idx) = ⟨idx ++ 0x9#4, 0#64, 0#64⟩) ∧
  (∀ (k : U64) (r linv : U32), assemble (.feistel k r linv) = ⟨0x0A#8, k, linv ++ r⟩) ∧
  (∀ k d : U64, assemble (.isoround k d) = ⟨0x0B#8, k, d⟩ ∧ assemble (.encrypt k d) = ⟨0x0C#8, k, d⟩) ∧
  assemble (.bperm 3#3 .complement 1#64) = ⟨0xB7#8, 0#64, 1#64⟩ ∧ assemble (.rdkey 15#4) = ⟨0xF9#8, 0#64, 0#64⟩ ∧
  assemble (.feistel 0x502cacc603c7#64 0x80668066#32 0x076e59c9#32) = ⟨0x0A#8, 0x502cacc603c7#64, 0x076e59c980668066#64⟩

/-- R106: stepping one instance leaves every other instance as it was, and the steps of two instances commute.
The spec marks as its own: R106 (decision D27).
The model's own: log entry 8. -/
def Obligations.InstancesAreIndependent : Prop :=
  (∀ (n : Nat) (p : List State) (s t : State), p[n]? = some s → step s = .next t →
    ∃ q, platformStep n p = .next q ∧ q[n]? = some t ∧ q.length = p.length ∧ ∀ m, m ≠ n → q[m]? = p[m]?) ∧
  ∀ (m n : Nat) (p : List State), m ≠ n → platformRun [m, n] p = platformRun [n, m] p
end

