-- ==== Sys2Proof/Laws/Engine.lean ====
section
/-! SUPPORT. What the engine does, bit by bit, and that the seven tables pass its check. Callers cite `bpe_getLsbD`
instead of unfolding `bpe`. -/

namespace Sys2Proof.Machine

theorem natOfBits_testBit (bs : List Bool) (i : Nat) : (natOfBits bs).testBit i = bs.getD i false := by
  induction bs generalizing i with
  | nil => simp [natOfBits]
  | cons b bs ih =>
    cases i with
    | zero => cases b <;> simp [natOfBits, Nat.testBit_zero]
    | succ i =>
      have h : (b.toNat + 2 * natOfBits bs) / 2 = natOfBits bs := by cases b <;> simp; omega
      simp [natOfBits, Nat.testBit_succ, h, ih]

/-- Output bit `i` of the engine is the input bit that `sources` names at place `i`. -/
theorem bpe_getLsbD {W S : Nat} (T : PermTable W S) (mode : Mode) (x : BitVec S) (i : Nat) :
    (bpe T mode x).getLsbD i = (decide (i < W) && ((sources T mode).map fun j => x.getLsbD j).getD i false) := by
  simp [bpe, BitVec.getLsbD_ofNat, natOfBits_testBit]

theorem tableInRange_iff {W S : Nat} (T : PermTable W S) :
    tableInRange T = true ↔ T.entries.length = W ∧ ∀ t ∈ T.entries, t < S := by simp [tableInRange]

@[simp] theorem sources_length {W S : Nat} (T : PermTable W S) (mode : Mode) :
    (sources T mode).length = T.entries.length := by cases mode <;> simp [sources]

@[simp] theorem tableInRange_tIP : tableInRange tIP = true := by decide
@[simp] theorem tableInRange_tFP : tableInRange tFP = true := by decide
@[simp] theorem tableInRange_tE : tableInRange tE = true := by decide
@[simp] theorem tableInRange_tP : tableInRange tP = true := by decide
@[simp] theorem tableInRange_tPINV : tableInRange tPINV = true := by decide
@[simp] theorem tableInRange_tPC1 : tableInRange tPC1 = true := by decide
@[simp] theorem tableInRange_tPC2 : tableInRange tPC2 = true := by decide

@[simp] theorem keyTablesInRange_eq : keyTablesInRange = true := by simp [keyTablesInRange]
@[simp] theorem roundTablesInRange_eq : roundTablesInRange = true := by simp [roundTablesInRange]
@[simp] theorem isoroundTablesInRange_eq : isoroundTablesInRange = true := by simp [isoroundTablesInRange]
@[simp] theorem cipherTablesInRange_eq : cipherTablesInRange = true := by simp [cipherTablesInRange]

/-- Rotation moves bit `i` to bit `(i+n) mod 28`, read from the destination. -/
theorem rol28_getLsbD (v : U28) (n i : Nat) (hn : n ≤ 28) :
    (rol28 v n).getLsbD i = (decide (i < 28) && if i < n then v.getLsbD (28 - n + i) else v.getLsbD (i - n)) := by
  by_cases hi : i < 28
  · by_cases h : i < n
    · simp [rol28, hi, h]
    · simp only [rol28, hi, h, BitVec.getLsbD_or, BitVec.getLsbD_shiftLeft, BitVec.getLsbD_ushiftRight]
      simp [show 28 ≤ 28 - n + i by omega]
  · simp [hi, BitVec.getLsbD_of_ge _ _ (Nat.le_of_not_lt hi)]

end Sys2Proof.Machine
end

