-- ==== Sys2Proof/Laws/State.lean ====
section
/-! SUPPORT. One lemma per field per update of State, each true by unfolding one definition. -/

namespace Sys2Proof.Machine

@[simp] theorem State.respond_rk (s : State) (status : U4) (dout : U64) : (s.respond status dout).rk = s.rk := rfl
@[simp] theorem State.respond_flt (s : State) (status : U4) (dout : U64) : (s.respond status dout).flt = s.flt := rfl
@[simp] theorem State.respond_kin (s : State) (status : U4) (dout : U64) : (s.respond status dout).kin = s.kin := rfl
@[simp] theorem State.respond_din (s : State) (status : U4) (dout : U64) : (s.respond status dout).din = s.din := rfl
@[simp] theorem State.respond_incoming (s : State) (status : U4) (dout : U64) : (s.respond status dout).incoming = s.incoming := rfl
@[simp] theorem State.respond_responses (s : State) (status : U4) (dout : U64) : (s.respond status dout).responses = s.responses ++ [{ status := status, dout := dout }] := rfl

@[simp] theorem State.complete_rk (s : State) {w : Nat} (v : BitVec w) : (s.complete v).rk = s.rk := rfl
@[simp] theorem State.complete_flt (s : State) {w : Nat} (v : BitVec w) : (s.complete v).flt = s.flt := rfl
@[simp] theorem State.complete_kin (s : State) {w : Nat} (v : BitVec w) : (s.complete v).kin = s.kin := rfl
@[simp] theorem State.complete_din (s : State) {w : Nat} (v : BitVec w) : (s.complete v).din = s.din := rfl
@[simp] theorem State.complete_incoming (s : State) {w : Nat} (v : BitVec w) : (s.complete v).incoming = s.incoming := rfl
@[simp] theorem State.complete_responses (s : State) {w : Nat} (v : BitVec w) : (s.complete v).responses = s.responses ++ [{ status := 0#4, dout := v.setWidth 64 }] := rfl

@[simp] theorem State.takeFault_rk (s : State) (c : FaultCode) : (s.takeFault c).rk = s.rk := rfl
@[simp] theorem State.takeFault_flt (s : State) (c : FaultCode) : (s.takeFault c).flt = faultStatus c := rfl
@[simp] theorem State.takeFault_kin (s : State) (c : FaultCode) : (s.takeFault c).kin = s.kin := rfl
@[simp] theorem State.takeFault_din (s : State) (c : FaultCode) : (s.takeFault c).din = s.din := rfl
@[simp] theorem State.takeFault_incoming (s : State) (c : FaultCode) : (s.takeFault c).incoming = s.incoming := rfl
@[simp] theorem State.takeFault_responses (s : State) (c : FaultCode) : (s.takeFault c).responses = s.responses ++ [{ status := faultStatus c, dout := 0#64 }] := rfl

@[simp] theorem State.answerHalted_rk (s : State) : (s.answerHalted).rk = s.rk := rfl
@[simp] theorem State.answerHalted_flt (s : State) : (s.answerHalted).flt = s.flt := rfl
@[simp] theorem State.answerHalted_kin (s : State) : (s.answerHalted).kin = s.kin := rfl
@[simp] theorem State.answerHalted_din (s : State) : (s.answerHalted).din = s.din := rfl
@[simp] theorem State.answerHalted_incoming (s : State) : (s.answerHalted).incoming = s.incoming := rfl
@[simp] theorem State.answerHalted_responses (s : State) : (s.answerHalted).responses = s.responses ++ [{ status := s.flt, dout := 0#64 }] := rfl

@[simp] theorem State.applyReset_rk (s : State) : (s.applyReset).rk = none := rfl
@[simp] theorem State.applyReset_flt (s : State) : (s.applyReset).flt = 0#4 := rfl
@[simp] theorem State.applyReset_kin (s : State) : (s.applyReset).kin = s.kin := rfl
@[simp] theorem State.applyReset_din (s : State) : (s.applyReset).din = s.din := rfl
@[simp] theorem State.applyReset_incoming (s : State) : (s.applyReset).incoming = s.incoming := rfl
@[simp] theorem State.applyReset_responses (s : State) : (s.applyReset).responses = s.responses := rfl

@[simp] theorem State.writeRoundKeys_rk (s : State) (ks : RoundKeys) : (s.writeRoundKeys ks).rk = some ks := rfl
@[simp] theorem State.writeRoundKeys_flt (s : State) (ks : RoundKeys) : (s.writeRoundKeys ks).flt = s.flt := rfl
@[simp] theorem State.writeRoundKeys_kin (s : State) (ks : RoundKeys) : (s.writeRoundKeys ks).kin = s.kin := rfl
@[simp] theorem State.writeRoundKeys_din (s : State) (ks : RoundKeys) : (s.writeRoundKeys ks).din = s.din := rfl
@[simp] theorem State.writeRoundKeys_incoming (s : State) (ks : RoundKeys) : (s.writeRoundKeys ks).incoming = s.incoming := rfl
@[simp] theorem State.writeRoundKeys_responses (s : State) (ks : RoundKeys) : (s.writeRoundKeys ks).responses = s.responses := rfl

@[simp] theorem State.presentOperands_rk (s : State) (r : Request) : (s.presentOperands r).rk = s.rk := rfl
@[simp] theorem State.presentOperands_flt (s : State) (r : Request) : (s.presentOperands r).flt = s.flt := rfl
@[simp] theorem State.presentOperands_kin (s : State) (r : Request) : (s.presentOperands r).kin = r.kin := rfl
@[simp] theorem State.presentOperands_din (s : State) (r : Request) : (s.presentOperands r).din = r.din := rfl
@[simp] theorem State.presentOperands_incoming (s : State) (r : Request) : (s.presentOperands r).incoming = s.incoming := rfl
@[simp] theorem State.presentOperands_responses (s : State) (r : Request) : (s.presentOperands r).responses = s.responses := rfl

@[simp] theorem State.withFetchWord_rk (s : State) (nbits w : Nat) : (s.withFetchWord nbits w).rk = s.rk := rfl
@[simp] theorem State.withFetchWord_flt (s : State) (nbits w : Nat) : (s.withFetchWord nbits w).flt = s.flt := rfl
@[simp] theorem State.withFetchWord_kin (s : State) (nbits w : Nat) : (s.withFetchWord nbits w).kin = s.kin := rfl
@[simp] theorem State.withFetchWord_din (s : State) (nbits w : Nat) : (s.withFetchWord nbits w).din = s.din := rfl
@[simp] theorem State.withFetchWord_incoming (s : State) (nbits w : Nat) : (s.withFetchWord nbits w).incoming = .command { cmd := BitVec.ofNat 8 (w % 2 ^ nbits), kin := 0#64, din := 0#64 } :: s.incoming := rfl
@[simp] theorem State.withFetchWord_responses (s : State) (nbits w : Nat) : (s.withFetchWord nbits w).responses = s.responses := rfl

@[simp] theorem State.rkv_of_none {s : State} (h : s.rk = none) : s.rkv = 0#1 := by simp [State.rkv, h]
@[simp] theorem State.rkv_of_some {s : State} {ks : RoundKeys} (h : s.rk = some ks) : s.rkv = 1#1 := by simp [State.rkv, h]

theorem State.rkv_eq_one_iff (s : State) : s.rkv = 1#1 ↔ ∃ ks, s.rk = some ks := by
  cases h : s.rk <;> simp [State.rkv, h]

theorem State.rkv_eq_zero_iff (s : State) : s.rkv = 0#1 ↔ s.rk = none := by
  cases h : s.rk <;> simp [State.rkv, h]

@[simp] theorem State.halted_eq_false_iff (s : State) : s.halted = false ↔ s.flt = 0#4 := by simp [State.halted]
@[simp] theorem State.halted_eq_true_iff (s : State) : s.halted = true ↔ s.flt ≠ 0#4 := by simp [State.halted]

theorem State.readRoundKey_of_some {s : State} {ks : RoundKeys} (h : s.rk = some ks) (idx : U4) :
    s.readRoundKey idx = some (ks.get idx.toFin) := by simp [State.readRoundKey, h]

theorem State.readRoundKey_of_none {s : State} (h : s.rk = none) (idx : U4) : s.readRoundKey idx = none := by
  simp [State.readRoundKey, h]

end Sys2Proof.Machine
end

