-- ==== Sys2Proof/Laws/Ops.lean ====
section
/-! SUPPORT. What each shared operation and each command can do, said once: live, halted, and in every case. -/

namespace Sys2Proof.Machine

theorem whenLive_of_live {s : State} (h : s.flt = 0#4) (run : State → Answer) : whenLive s run = run s := by
  simp [whenLive, State.halted, h]

theorem whenLive_of_halted {s : State} (h : s.flt ≠ 0#4) (run : State → Answer) :
    whenLive s run = .next s.answerHalted := by simp [whenLive, State.halted, h]

@[simp] theorem whenInRange_true (s : State) (run : State → Answer) : whenInRange true s run = run s := rfl

@[simp] theorem whenInRange_false (s : State) (run : State → Answer) :
    whenInRange false s run = .next (s.takeFault .tableIndexOutOfRange) := rfl

theorem permuteCommand_of_live {W S : Nat} {T : PermTable W S} (hT : tableInRange T = true) (mode : Mode) (x : BitVec S)
    {s : State} (h : s.flt = 0#4) : permuteCommand T mode x s = .next (s.complete (bpe T mode x)) := by
  simp [permuteCommand, whenLive_of_live h, hT]

theorem permuteCommand_of_halted {W S : Nat} (T : PermTable W S) (mode : Mode) (x : BitVec S)
    {s : State} (h : s.flt ≠ 0#4) : permuteCommand T mode x s = .next s.answerHalted := whenLive_of_halted h _

/-- GENKEYS and ENCRYPT, the two commands that write the round-key file (R11). -/
def WritesKeys (i : Instr) : Prop := i = .genkeys ∨ i = .encrypt

/-- Everything command `i` can do to the state: give the halted answer; complete; complete after writing the schedule of
`kin` into the file; take IllegalCommand (an ill-formed BPERM alone); or take RoundKeyInvalid (RDKEY with no file). -/
def CommandEffect (i : Instr) (s t : State) : Prop :=
  (s.flt ≠ 0#4 ∧ t = s.answerHalted) ∨
  (s.flt = 0#4 ∧ ¬ WritesKeys i ∧ ∃ v : U64, t = s.respond 0#4 v) ∨
  (s.flt = 0#4 ∧ WritesKeys i ∧ ∃ v : U64, t = (s.writeRoundKeys (keySchedule s.kin)).respond 0#4 v) ∨
  (s.flt = 0#4 ∧ WellFormed i = false ∧ t = s.takeFault .illegalCommand) ∨
  (s.flt = 0#4 ∧ (∃ idx, i = .rdkey idx) ∧ s.rk = none ∧ t = s.takeFault .roundKeyInvalid)

/-- A command whose live answer completes without writing the file, and which answers when halted as R99 says. -/
theorem effect_of_completes {i : Instr} {s : State} {a : Answer} (hi : ¬ WritesKeys i)
    (hlive : s.flt = 0#4 → ∃ v : U64, a = .next (s.respond 0#4 v)) (hhalt : s.flt ≠ 0#4 → a = .next s.answerHalted) :
    ∃ t, a = .next t ∧ CommandEffect i s t := by
  by_cases h : s.flt = 0#4
  · obtain ⟨v, hv⟩ := hlive h
    exact ⟨_, hv, .inr (.inl ⟨h, hi, v, rfl⟩)⟩
  · exact ⟨_, hhalt h, .inl ⟨h, rfl⟩⟩

/-- A command whose live answer writes the file and completes. -/
theorem effect_of_writes {i : Instr} {s : State} {a : Answer} (hi : WritesKeys i)
    (hlive : s.flt = 0#4 → ∃ v : U64, a = .next ((s.writeRoundKeys (keySchedule s.kin)).respond 0#4 v))
    (hhalt : s.flt ≠ 0#4 → a = .next s.answerHalted) : ∃ t, a = .next t ∧ CommandEffect i s t := by
  by_cases h : s.flt = 0#4
  · obtain ⟨v, hv⟩ := hlive h
    exact ⟨_, hv, .inr (.inr (.inl ⟨h, hi, v, rfl⟩))⟩
  · exact ⟨_, hhalt h, .inl ⟨h, rfl⟩⟩

theorem permuteCommand_effect {W S : Nat} {T : PermTable W S} (hT : tableInRange T = true) (mode : Mode) (x : BitVec S)
    {i : Instr} (hi : ¬ WritesKeys i) (s : State) : ∃ t, permuteCommand T mode x s = .next t ∧ CommandEffect i s t :=
  effect_of_completes hi (fun h => ⟨_, permuteCommand_of_live hT mode x h⟩) (permuteCommand_of_halted T mode x)

theorem execBperm_effect (tsel : BitVec 3) (mode : Mode) (s : State) :
    ∃ t, execBperm tsel mode s = .next t ∧ CommandEffect (.bperm tsel mode) s t := by
  have hi : ¬ WritesKeys (.bperm tsel mode) := by simp [WritesKeys]
  unfold execBperm
  split
  · exact permuteCommand_effect tableInRange_tIP mode _ hi s
  · exact permuteCommand_effect tableInRange_tFP mode _ hi s
  · exact permuteCommand_effect tableInRange_tE mode _ hi s
  · exact permuteCommand_effect tableInRange_tP mode _ hi s
  · exact permuteCommand_effect tableInRange_tPINV mode _ hi s
  · exact permuteCommand_effect tableInRange_tPC1 mode _ hi s
  · exact permuteCommand_effect tableInRange_tPC2 mode _ hi s
  · by_cases h : s.flt = 0#4
    · have hw : WellFormed (.bperm tsel mode) = false := by
        rename_i h0 h1 h2 h3 h4 h5 h6
        have : tsel = 7#3 := by
          have := tsel.isLt
          apply BitVec.eq_of_toNat_eq
          simp only [imp_false] at h0 h1 h2 h3 h4 h5 h6
          simp only [BitVec.toNat_ofNat]
          omega
        simp [WellFormed, this]
      exact ⟨_, whenLive_of_live h _, .inr (.inr (.inr (.inl ⟨h, hw, rfl⟩)))⟩
    · exact ⟨_, whenLive_of_halted h _, .inl ⟨h, rfl⟩⟩

theorem execGenkeys_of_live {s : State} (h : s.flt = 0#4) :
    execGenkeys s = .next ((s.writeRoundKeys (keySchedule s.kin)).complete 0#64) := by
  simp [execGenkeys, whenLive_of_live h, State.kin64]

theorem execRdkey_of_some {s : State} (h : s.flt = 0#4) {ks : RoundKeys} (hk : s.rk = some ks) (idx : U4) :
    execRdkey idx s = .next (s.complete (ks.get idx.toFin)) := by
  simp [execRdkey, whenLive_of_live h, State.readRoundKey_of_some hk]

theorem execRdkey_of_none {s : State} (h : s.flt = 0#4) (hk : s.rk = none) (idx : U4) :
    execRdkey idx s = .next (s.takeFault .roundKeyInvalid) := by
  simp [execRdkey, whenLive_of_live h, State.readRoundKey_of_none hk]

theorem execFeistel_of_live {s : State} (h : s.flt = 0#4) :
    execFeistel s = .next (s.complete (feistelF s.kin48 s.din32 s.dinHigh32)) := by
  simp [execFeistel, whenLive_of_live h]

theorem execIsoround_of_live {s : State} (h : s.flt = 0#4) :
    execIsoround s = .next (s.complete (isolatedRound s.kin48 s.din)) := by
  simp [execIsoround, whenLive_of_live h, State.din64]

theorem execEncrypt_of_live {s : State} (h : s.flt = 0#4) :
    execEncrypt s = .next ((s.writeRoundKeys (keySchedule s.kin)).complete (encryptBlock s.kin s.din)) := by
  simp [execEncrypt, whenLive_of_live h, State.kin64, State.din64, encryptBlock]

theorem execGenkeys_of_halted {s : State} (h : s.flt ≠ 0#4) : execGenkeys s = .next s.answerHalted := whenLive_of_halted h _
theorem execRdkey_of_halted {s : State} (h : s.flt ≠ 0#4) (idx : U4) : execRdkey idx s = .next s.answerHalted :=
  whenLive_of_halted h _
theorem execFeistel_of_halted {s : State} (h : s.flt ≠ 0#4) : execFeistel s = .next s.answerHalted := whenLive_of_halted h _
theorem execIsoround_of_halted {s : State} (h : s.flt ≠ 0#4) : execIsoround s = .next s.answerHalted :=
  whenLive_of_halted h _
theorem execEncrypt_of_halted {s : State} (h : s.flt ≠ 0#4) : execEncrypt s = .next s.answerHalted := whenLive_of_halted h _

theorem execRdkey_effect (idx : U4) (s : State) : ∃ t, execRdkey idx s = .next t ∧ CommandEffect (.rdkey idx) s t := by
  by_cases h : s.flt = 0#4
  · cases hk : s.rk with
    | none => exact ⟨_, execRdkey_of_none h hk idx, .inr (.inr (.inr (.inr ⟨h, ⟨idx, rfl⟩, hk, rfl⟩)))⟩
    | some ks => exact ⟨_, execRdkey_of_some h hk idx, .inr (.inl ⟨h, by simp [WritesKeys], _, rfl⟩)⟩
  · exact ⟨_, execRdkey_of_halted h idx, .inl ⟨h, rfl⟩⟩

/-- Every command answers a next state, with one of the effects of `CommandEffect`. -/
theorem exec_effect (i : Instr) (s : State) : ∃ t, exec i s = .next t ∧ CommandEffect i s t := by
  cases i with
  | ip => exact permuteCommand_effect tableInRange_tIP _ _ (by simp [WritesKeys]) s
  | fp => exact permuteCommand_effect tableInRange_tFP _ _ (by simp [WritesKeys]) s
  | pbox => exact permuteCommand_effect tableInRange_tP _ _ (by simp [WritesKeys]) s
  | pboxinv => exact permuteCommand_effect tableInRange_tPINV _ _ (by simp [WritesKeys]) s
  | expand => exact permuteCommand_effect tableInRange_tE _ _ (by simp [WritesKeys]) s
  | pc1 => exact permuteCommand_effect tableInRange_tPC1 _ _ (by simp [WritesKeys]) s
  | pc2 => exact permuteCommand_effect tableInRange_tPC2 _ _ (by simp [WritesKeys]) s
  | bperm tsel mode => exact execBperm_effect tsel mode s
  | genkeys => exact effect_of_writes (.inl rfl) (fun h => ⟨_, execGenkeys_of_live h⟩) execGenkeys_of_halted
  | rdkey idx => exact execRdkey_effect idx s
  | feistel => exact effect_of_completes (by simp [WritesKeys]) (fun h => ⟨_, execFeistel_of_live h⟩) execFeistel_of_halted
  | isoround => exact effect_of_completes (by simp [WritesKeys]) (fun h => ⟨_, execIsoround_of_live h⟩) execIsoround_of_halted
  | encrypt => exact effect_of_writes (.inr rfl) (fun h => ⟨_, execEncrypt_of_live h⟩) execEncrypt_of_halted

end Sys2Proof.Machine
end

