-- ==== Sys2Proof/Laws/PerInstr.lean ====
section
/-! SUPPORT. A statement about every instruction as syntax, one lemma per constructor: the OP field of its word is the
OP of its row, and its SEL field is what the row demands (spec/30_encoding.md R42, R43, R44). -/

namespace Sys2Proof.Laws.Fields

abbrev Statement (i : Instr) : Prop := opField (encode i) = opOf i ∧ selField (encode i) = selOf i

theorem ip : Statement .ip := by decide
theorem fp : Statement .fp := by decide
theorem pbox : Statement .pbox := by decide
theorem pboxinv : Statement .pboxinv := by decide
theorem expand : Statement .expand := by decide
theorem pc1 : Statement .pc1 := by decide
theorem pc2 : Statement .pc2 := by decide
theorem bperm (tsel : BitVec 3) (mode : Mode) : Statement (.bperm tsel mode) := by
  revert tsel; cases mode <;> decide
theorem genkeys : Statement .genkeys := by decide
theorem rdkey (idx : U4) : Statement (.rdkey idx) := by revert idx; decide
theorem feistel : Statement .feistel := by decide
theorem isoround : Statement .isoround := by decide
theorem encrypt : Statement .encrypt := by decide

end Sys2Proof.Laws.Fields
end

