-- ==== Sys2Proof/Laws/Step.lean ====
section
/-! SUPPORT. What a step does with what the host presents, said once; and a run taken one step at a time. -/

namespace Sys2Proof.Machine

theorem step_idle {s : State} (h : s.incoming = []) : step s = .next s := by simp [step, serve, h]

theorem step_reset {s : State} {rest : List HostEvent} (h : s.incoming = .reset :: rest) :
    step s = .next (State.applyReset { s with incoming := rest }) := by simp [step, serve, h]

theorem step_command {s : State} {r : Request} {rest : List HostEvent} (h : s.incoming = .command r :: rest) :
    step s = runWord r.cmd (State.presentOperands { s with incoming := rest } r) := by simp [step, serve, h]

/-- Everything a command word can do: the halted answer; IllegalCommand; or what the command it decodes to does. -/
def WordEffect (cmd : U8) (s t : State) : Prop :=
  (s.flt ≠ 0#4 ∧ t = s.answerHalted) ∨
  (s.flt = 0#4 ∧ (∃ e, decode cmd = .error e) ∧ t = s.takeFault .illegalCommand) ∨
  (s.flt = 0#4 ∧ ∃ i, decode cmd = .ok i ∧ exec i s = .next t ∧ CommandEffect i s t)

theorem runWord_effect (cmd : U8) (s : State) : ∃ t, runWord cmd s = .next t ∧ WordEffect cmd s t := by
  by_cases h : s.flt = 0#4
  · rw [runWord, whenLive_of_live h]
    cases hd : decode cmd with
    | ok i =>
      obtain ⟨t, ht, he⟩ := exec_effect i s
      exact ⟨t, ht, .inr (.inr ⟨h, i, hd, ht, he⟩)⟩
    | error e => exact ⟨_, rfl, .inr (.inl ⟨h, ⟨e, hd⟩, rfl⟩)⟩
  · exact ⟨_, whenLive_of_halted h _, .inl ⟨h, rfl⟩⟩

/-- Everything a step can do, by what the host presents. -/
theorem step_cases {s t : State} (h : step s = .next t) :
    (s.incoming = [] ∧ t = s) ∨
    (∃ rest, s.incoming = .reset :: rest ∧ t = State.applyReset { s with incoming := rest }) ∨
    ∃ r rest, s.incoming = .command r :: rest ∧
      WordEffect r.cmd (State.presentOperands { s with incoming := rest } r) t := by
  rcases hi : s.incoming with _ | ⟨_ | _, rest⟩
  · rw [step_idle hi] at h; cases h
    exact .inl ⟨rfl, rfl⟩
  · rename_i r
    rw [step_command hi] at h
    obtain ⟨u, hu, he⟩ := runWord_effect r.cmd (State.presentOperands { s with incoming := rest } r)
    rw [hu] at h; cases h
    exact .inr (.inr ⟨r, rest, rfl, he⟩)
  · rw [step_reset hi] at h; cases h
    exact .inr (.inl ⟨rest, rfl, rfl⟩)

/-- A run whose first step answers `t` goes on from `t`. -/
theorem run_succ_of_step {s t : State} (h : step s = .next t) (n : Nat) :
    Host.Core.run Sys2Proof.core (n + 1) s = Host.Core.run Sys2Proof.core n t := by
  simp only [Host.Core.run]
  rw [show Sys2Proof.core.step s = .next t from h]

end Sys2Proof.Machine
end

