-- ==== Sys2Proof/Tests/Slice0.lean ====
section
/-! SUPPORT. The model's own tests: the well-formedness smoke test, words written out from spec/30_encoding.md, at most two
vectors of spec/95_test_vectors.md per command, and for every statement a witness that meets its hypotheses. -/

namespace Sys2Proof.Tests
open Sys2Proof.Machine Sys2Proof.Claim

/-! ### Helpers -/

/-- `s` with one command presented. -/
def presented (s : State) (cmd : U8) (kin din : U64) : State := { s with incoming := [.command ⟨cmd, kin, din⟩] }

/-- The state after one step, where there is one. -/
def after (s : State) : Option State :=
  match step s with
  | .next t => some t
  | _ => none

/-- The responses after one command on a core right after reset. -/
def fromReset (cmd : U8) (kin din : U64) : Option (List Response) :=
  (after (presented State.reset cmd kin din)).map State.responses

/-- A core whose file holds the schedule of one of spec/95_test_vectors.md's keys. -/
def keyed : State := { State.reset with rk := some (keySchedule 0x133457799BBCDFF1#64) }

/-- A core halted by RoundKeyInvalid with the file written. -/
def haltedKeyed : State := { keyed with flt := 2#4 }

/-! ### Well-formedness: the one check there is -/

theorem test_wf_refuses_table_7 : WellFormed (.bperm 7#3 .direct) = false ∧ WellFormed (.bperm 7#3 .complement) = false := by
  decide
theorem test_wf_accepts : WellFormed (.bperm 6#3 .complement) = true ∧ WellFormed (.rdkey 15#4) = true := by decide

/-! ### Decoding: every command by a word written out bit by bit as `SEL OP` (R42, R43, R44) -/

theorem test_decode_permutations :
    decode 0b00000000#8 = .ok .ip ∧ decode 0b00000001#8 = .ok .fp ∧ decode 0b00000010#8 = .ok .pbox ∧
    decode 0b00000011#8 = .ok .pboxinv ∧ decode 0b00000100#8 = .ok .expand ∧ decode 0b00000101#8 = .ok .pc1 ∧
    decode 0b00000110#8 = .ok .pc2 := by decide
theorem test_decode_bperm :
    decode 0b00000111#8 = .ok (.bperm 0#3 .direct) ∧ decode 0b10110111#8 = .ok (.bperm 3#3 .complement) ∧
    decode 0b01010111#8 = .ok (.bperm 5#3 .direct) ∧ decode 0b11100111#8 = .ok (.bperm 6#3 .complement) := by decide
theorem test_decode_keys :
    decode 0b00001000#8 = .ok .genkeys ∧ decode 0b00001001#8 = .ok (.rdkey 0#4) ∧
    decode 0b10001001#8 = .ok (.rdkey 8#4) ∧ decode 0b11111001#8 = .ok (.rdkey 15#4) := by decide
theorem test_decode_cipher :
    decode 0b00001010#8 = .ok .feistel ∧ decode 0b00001011#8 = .ok .isoround ∧ decode 0b00001100#8 = .ok .encrypt := by
  decide
/-- Section 6 of spec/95_test_vectors.md, and the three grounds of R96. -/
theorem test_decode_refuses :
    decode 0x0D#8 = .error .reservedOp ∧ decode 0x0E#8 = .error .reservedOp ∧ decode 0xFF#8 = .error .reservedOp ∧
    decode 0x77#8 = .error .reservedTable ∧ decode 0xF7#8 = .error .reservedTable ∧
    decode 0x10#8 = .error .nonzeroSel ∧ decode 0x18#8 = .error .nonzeroSel := by decide
theorem test_decode_table_word :
    decodeTableWord 8 0xB7 = some (.bperm 3#3 .complement) ∧ decodeTableWord 8 0x77 = none := by decide

/-! ### The commands (spec/95_test_vectors.md, the section named at each) -/

/-- 2.1. -/
theorem test_ip : fromReset 0x00#8 0xFFFF#64 0x1122334455667788#64 = some [⟨0#4, 0x7855785580668066#64⟩] := by
  decide +kernel
/-- 2.1: the top bit. -/
theorem test_ip_top : fromReset 0x00#8 0#64 0x8000000000000000#64 = some [⟨0#4, 0x0000000001000000#64⟩] := by
  decide +kernel
/-- 2.1. -/
theorem test_fp : fromReset 0x01#8 0#64 0x0123456789abcdef#64 = some [⟨0#4, 0xff330faa00330faa#64⟩] := by decide +kernel
/-- 2.2, ignored bits. -/
theorem test_pbox_ignores_high : fromReset 0x02#8 0#64 0xdeadbeef00000001#64 = some [⟨0#4, 0x800#64⟩] := by
  decide +kernel
/-- 2.2. -/
theorem test_pbox : fromReset 0x02#8 0#64 0x12345678#64 = some [⟨0#4, 0x6e34140e#64⟩] := by decide +kernel
/-- 2.2. -/
theorem test_pboxinv : fromReset 0x03#8 0#64 0x12345678#64 = some [⟨0#4, 0x250c4e74#64⟩] := by decide +kernel
/-- 2.2. -/
theorem test_expand : fromReset 0x04#8 0#64 0x0000ffff#64 = some [⟨0#4, 0x8000017ffffe#64⟩] := by decide +kernel
/-- 2.2, ignored bits. -/
theorem test_expand_ignores_high : fromReset 0x04#8 0#64 0xffffffff00000000#64 = some [⟨0#4, 0#64⟩] := by decide +kernel
/-- 2.3. -/
theorem test_pc1 : fromReset 0x05#8 0#64 0x133457799bbcdff1#64 = some [⟨0#4, 0xf0ccaaf556678f#64⟩] := by decide +kernel
/-- 2.3: the key is on `din`, so a key on `kin` does nothing. -/
theorem test_pc1_ignores_kin : fromReset 0x05#8 0xFFFFFFFFFFFFFFFF#64 0x0101010101010101#64 = some [⟨0#4, 0#64⟩] := by
  decide +kernel
/-- 2.4. -/
theorem test_pc2 : fromReset 0x06#8 0#64 0xf0ccaaf556678f#64 = some [⟨0#4, 0xcb3d8b0e17f5#64⟩] := by decide +kernel
/-- 2.4, ignored bits. -/
theorem test_pc2_ignores_high : fromReset 0x06#8 0#64 0xff00000000000001#64 = some [⟨0#4, 0x100#64⟩] := by decide +kernel
/-- 2.2: BPERM.P.C, a mode no named command uses. -/
theorem test_bperm_p_complement : fromReset 0xB7#8 0#64 0x12345678#64 = some [⟨0#4, 0x7b009a1a#64⟩] := by decide +kernel
/-- 2.3: BPERM.PC1.D. -/
theorem test_bperm_pc1_direct : fromReset 0x57#8 0#64 0x133457799bbcdff1#64 = some [⟨0#4, 0x7ffaacc86655dd#64⟩] := by
  decide +kernel
/-- 3.1: the first, ninth and last round key. -/
theorem test_genkeys :
    ((after (presented State.reset 0x08#8 0x0123456789abcdef#64 0#64)).bind State.rk).map
      (fun ks => (ks[0], ks[8], ks[15])) = some (0x0b02679b49a5#48, 0xc0c9e926b839#48, 0xca3d03b87032#48) := by
  decide +kernel
/-- 6: a GENKEYS word with SEL = 1 writes no key. -/
theorem test_genkeys_sel : after (presented State.reset 0x18#8 7#64 0#64) =
    some { State.reset with flt := 1#4, kin := 7#64, responses := [⟨1#4, 0#64⟩] } := by decide
/-- 3.3: RDKEY.8, operands ignored. -/
theorem test_rdkey : (after (presented keyed 0x89#8 0xffffffffffffffff#64 0xffffffffffffffff#64)).map State.responses =
    some [⟨0#4, 0x0000e0dbebede781#64⟩] := by decide +kernel
/-- 3.3: RDKEY before any key. -/
theorem test_rdkey_invalid : after (presented State.reset 0x09#8 0#64 0#64) =
    some { State.reset with flt := 2#4, responses := [⟨2#4, 0#64⟩] } := by decide
/-- 4: the row that tells SBox `7-i` from SBox `i`. -/
theorem test_feistel_box_order : fromReset 0x0A#8 0x3f#64 0#64 = some [⟨0#4, 0xd8dadb9c#64⟩] := by decide +kernel
/-- 4: the last row. -/
theorem test_feistel : fromReset 0x0A#8 0x1b02effc7072#64 0x573924adf0aaf0aa#64 = some [⟨0#4, 0xef4a6544#64⟩] := by
  decide +kernel
/-- 5.2. -/
theorem test_isoround : fromReset 0x0B#8 0x1b02effc7072#64 0x0123456789abcdef#64 = some [⟨0#4, 0xef4a6544#64⟩] := by
  decide +kernel
/-- 5.2: it needs no key and writes none. -/
theorem test_isoround_leaves_file : ((after (presented State.reset 0x0B#8 0#64 0#64)).map State.rk) = some none := by
  decide +kernel
/-- 5.1. -/
theorem test_encrypt : fromReset 0x0C#8 0x133457799bbcdff1#64 0x0123456789abcdef#64 = some [⟨0#4, 0x85e813540f0ab405#64⟩] := by
  decide +kernel
/-- 5.1: a single key bit. -/
theorem test_encrypt_key_bit : fromReset 0x0C#8 0x8000000000000000#64 0#64 = some [⟨0#4, 0x95a8d72813daa94d#64⟩] := by
  decide +kernel

/-! ### Faults, the halted core, reset (section 6 and program 4 of section 7) -/

theorem test_reserved_op : after (presented keyed 0x0D#8 0#64 0#64) =
    some { keyed with flt := 1#4, responses := [⟨1#4, 0#64⟩] } := by decide +kernel
theorem test_halted_is_not_decoded : (after (presented haltedKeyed 0x0D#8 0#64 0#64)).map State.responses =
    some [⟨2#4, 0#64⟩] := by decide
theorem test_halted_genkeys_writes_nothing : (after (presented { State.reset with flt := 1#4 } 0x08#8 7#64 0#64)) =
    some { State.reset with flt := 1#4, kin := 7#64, responses := [⟨1#4, 0#64⟩] } := by decide
theorem test_reset_ends_halted : after { haltedKeyed with incoming := [.reset] } = some State.reset := by decide
theorem test_idle : after State.reset = some State.reset := by decide
theorem test_with_fetch_word : (after (State.reset.withFetchWord 8 0x02)).map State.responses = some [⟨0#4, 0#64⟩] := by
  decide +kernel

/-! ### The assembler's text (R48 and the examples of section 7) -/

theorem test_asm_bperm : asmText (.bperm 3#3 .complement 1#64) = "BPERM.P.C d=0x0000000000000001" := by decide +kernel
theorem test_asm_rdkey : asmText (.rdkey 15#4) = "RDKEY.15" := by decide +kernel
theorem test_asm_response : responseText ⟨0#4, 0x800#64⟩ = "-> 0x0000000000000800" ∧
    responseText ⟨2#4, 0#64⟩ = "-> FAULT(RoundKeyInvalid)" := by decide +kernel

/-! ### Witnesses: concrete inputs that meet the hypotheses of each statement -/

/-- `k` and `k'` agree on the effective bits below 64; above there are none. -/
theorem sameKey_of_lt {k k' : U64} (h : ∀ i < 64, i % 8 ≠ 0 → k.getLsbD i = k'.getLsbD i) : SameEffectiveKey k k' := by
  intro i hi
  by_cases hlt : i < 64
  · exact h i hlt hi
  · rw [BitVec.getLsbD_of_ge _ _ (by omega), BitVec.getLsbD_of_ge _ _ (by omega)]

theorem parity_witness : SameEffectiveKey 0x3032343234363236#64 0x3133353335373337#64 :=
  sameKey_of_lt (by decide +kernel)

/-- The premise `Live s` alone, for the statements of one command: right after reset, with operands on the port. -/
theorem witness_Live : Live { State.reset with kin := 0xFFFFFFFFFFFFFFFF#64, din := 0x8000000000000001#64 } := rfl

/-- The premises of `SelMustBeZero`, in the statements of the commands that take no `SEL`. -/
theorem witness_SelMustBeZero : (1#4 : U4) ≠ 0#4 ∧ Live (presented keyed (1#4 ++ 0xC#4) 1#64 2#64) ∧
    (presented keyed (1#4 ++ 0xC#4) 1#64 2#64).incoming = .command ⟨1#4 ++ 0xC#4, 1#64, 2#64⟩ :: [] :=
  ⟨by decide, rfl, rfl⟩
theorem witness_DecodeOfEncodeIsTheInstruction :
    WellFormed (.bperm 6#3 .complement) = true ∧ WellFormed (.rdkey 15#4) = true ∧ WellFormed .encrypt = true := by decide
theorem witness_EncodeOfDecodeIsTheWord : decode 0xE7#8 = .ok (.bperm 6#3 .complement) ∧ decode 0xF9#8 = .ok (.rdkey 15#4) := by
  decide
theorem witness_IllegalWordTakesIllegalCommand :
    Live (presented keyed 0x0D#8 1#64 2#64) ∧
    (presented keyed 0x0D#8 1#64 2#64).incoming = .command ⟨0x0D#8, 1#64, 2#64⟩ :: [] ∧
    ∀ w ∈ [0x0D#8, 0xFF#8, 0x77#8, 0xF7#8, 0x10#8, 0xFC#8], w ∉ legalWords := ⟨rfl, rfl, by decide⟩
theorem witness_StepRunsDecodedCommand :
    (presented keyed 0xF9#8 0#64 0#64).incoming = .command ⟨0xF9#8, 0#64, 0#64⟩ :: [] ∧
    decode 0xF9#8 = .ok (.rdkey 15#4) ∧ decodeTableWord 8 0x0C = some .encrypt := by decide
theorem witness_IdleCoreHoldsItsState : keyed.incoming = [] ∧ haltedKeyed.incoming = [] := by decide
theorem witness_HaltedCoreAnswersStoredCode : (presented haltedKeyed 0x0C#8 1#64 2#64).flt ≠ 0#4 ∧
    (presented haltedKeyed 0x0C#8 1#64 2#64).incoming = .command ⟨0x0C#8, 1#64, 2#64⟩ :: [] := by decide
theorem witness_HaltedRunChangesNothing :
    ({ haltedKeyed with incoming := [.command ⟨0x08#8, 1#64, 0#64⟩, .command ⟨0x0D#8, 0#64, 0#64⟩] } : State).flt ≠ 0#4 ∧
    ({ haltedKeyed with incoming := [.command ⟨0x08#8, 1#64, 0#64⟩, .command ⟨0x0D#8, 0#64, 0#64⟩] } : State).incoming =
      [(⟨0x08#8, 1#64, 0#64⟩ : Request), ⟨0x0D#8, 0#64, 0#64⟩].map HostEvent.command := by decide
theorem witness_OneResponsePerCommand :
    (presented State.reset 0x09#8 0#64 0#64).incoming = .command ⟨0x09#8, 0#64, 0#64⟩ :: [] := rfl
theorem witness_ResetAloneClearsRkvAndFlt :
    ({ haltedKeyed with incoming := [.reset] } : State).incoming = .reset :: [] ∧
    (∀ rest, haltedKeyed.incoming ≠ .reset :: rest) ∧ step haltedKeyed = .next haltedKeyed ∧
    haltedKeyed.rkv = 1#1 ∧ haltedKeyed.flt ≠ 0#4 :=
  ⟨rfl, fun _ => by simp [haltedKeyed, keyed, State.reset], rfl, rfl, by decide⟩
theorem witness_FaultWritesOnlyFlt : Live (presented State.reset 0x09#8 0#64 0#64) ∧
    ∃ t, step (presented State.reset 0x09#8 0#64 0#64) = .next t ∧ t.flt ≠ 0#4 := ⟨rfl, _, rfl, by decide⟩
theorem witness_StepKeepsFaultRegisterLegal : FaultRegisterLegal (presented State.reset 0x0D#8 0#64 0#64) ∧
    ResponsesLegal { presented State.reset 0x0D#8 0#64 0#64 with responses := [⟨0#4, 5#64⟩] } ∧
    ∃ t, step (presented State.reset 0x0D#8 0#64 0#64) = .next t ∧ t.flt = 1#4 :=
  ⟨.inl rfl, fun r hr => by
    obtain rfl : r = ⟨0#4, 5#64⟩ := by simpa [presented] using hr
    exact ⟨.inl rfl, fun h => absurd rfl h⟩, _, rfl, rfl⟩
theorem witness_StepKeepsKeyFileTheMostRecentSchedule :
    (presented State.reset 0x08#8 1#64 0#64).rk = (none : Option U64).map keySchedule ∧
    (presented keyed 0x0C#8 1#64 0#64).rk = (some 0x133457799BBCDFF1#64).map keySchedule ∧
    (∃ t, step (presented keyed 0x0C#8 1#64 0#64) = .next t) ∧ KeyFileIsSchedule keyed ∧ keyed.rkv = 1#1 :=
  ⟨rfl, rfl, ⟨_, rfl⟩, fun _ h => ⟨0x133457799BBCDFF1#64, (Option.some.inj h).symm⟩, rfl⟩
theorem witness_KeyFileWrittenOnlyByGenkeysAndEncrypt :
    Live (presented State.reset 0x08#8 1#64 0#64) ∧ decode 0x08#8 = .ok .genkeys ∧ decode 0x0C#8 = .ok .encrypt ∧
    (presented State.reset 0x08#8 1#64 0#64).incoming = .command ⟨0x08#8, 1#64, 0#64⟩ :: [] ∧
    (presented State.reset 0x0C#8 1#64 0#64).incoming = .command ⟨0x0C#8, 1#64, 0#64⟩ :: [] := ⟨rfl, rfl, rfl, rfl, rfl⟩
theorem witness_CommandsKeepLaunchPremises :
    KeyFileIsSchedule (presented State.reset 0x00#8 0#64 0#64) ∧ GoodState (presented State.reset 0x00#8 0#64 0#64) ∧
    ∃ t a, step (presented State.reset 0x00#8 0#64 0#64) = .next t ∧ t.responses = [] ++ [a] ∧ a.status = 0#4 :=
  ⟨by simp [KeyFileIsSchedule, presented, State.reset], rfl, _, _, rfl, rfl, rfl⟩
theorem witness_GoodRunIffEveryStatusOk :
    GoodState { State.reset with incoming := [.command ⟨0x08#8, 1#64, 0#64⟩, .command ⟨0x0D#8, 0#64, 0#64⟩] } ∧
    ({ State.reset with incoming := [.command ⟨0x08#8, 1#64, 0#64⟩, .command ⟨0x0D#8, 0#64, 0#64⟩] } : State).incoming =
      [(⟨0x08#8, 1#64, 0#64⟩ : Request), ⟨0x0D#8, 0#64, 0#64⟩].map HostEvent.command := ⟨rfl, rfl⟩
theorem witness_CommandFrame :
    (Instr.rdkey 3#4 ≠ .genkeys ∧ Instr.rdkey 3#4 ≠ .encrypt ∧ ∃ t, exec (.rdkey 3#4) State.reset = .next t) ∧
    ((∀ idx, Instr.bperm 6#3 .direct ≠ .rdkey idx) ∧ WellFormed (.bperm 6#3 .direct) = true ∧
      ∃ t, exec (.bperm 6#3 .direct) State.reset = .next t) ∧
    ∃ t, exec .genkeys State.reset = .next t :=
  ⟨⟨by decide, by decide, _, rfl⟩, ⟨fun _ h => Instr.noConfusion h, rfl, _, rfl⟩, _, rfl⟩
theorem witness_UnusedOperandBitsHaveNoEffect :
    (State.reset.kin ^^^ 0xFFFFFFFFFFFFFFFF#64) &&& kinUsed .pbox = 0#64 ∧
    (State.reset.din ^^^ 0xFFFFFFFF00000000#64) &&& dinUsed .pbox = 0#64 ∧
    (State.reset.din ^^^ 0xFF00000000000000#64) &&& dinUsed (.bperm 6#3 .complement) = 0#64 ∧
    ∃ t, exec .pbox State.reset = .next t := ⟨by decide, by decide, by decide, _, rfl⟩
theorem witness_CommandsCompleteWithoutPreparation :
    Live State.reset ∧ WellFormed .encrypt = true ∧ (∀ idx, Instr.encrypt ≠ .rdkey idx) ∧
    WellFormed (.bperm 6#3 .complement) = true ∧ (∃ t, exec .genkeys State.reset = .next t) ∧
    (∃ t, exec .encrypt State.reset = .next t) ∧ Live keyed ∧ keyed.rkv = 1#1 ∧ State.reset.rkv = 0#1 :=
  ⟨rfl, rfl, fun _ h => Instr.noConfusion h, rfl, ⟨_, rfl⟩, ⟨_, rfl⟩, rfl, rfl, rfl⟩

/-- One table out of range (entry 2 over width 2), one in range; both over a live core. -/
theorem witness_EngineFollowsItsFormulas :
    (tPC2.entries.length = 48 ∧ ∀ t ∈ tPC2.entries, t < 56) ∧ (∃ t ∈ (PermTable.mk [2] : PermTable 1 2).entries, 2 ≤ t) ∧
    Live State.reset := ⟨by decide, by decide, rfl⟩
theorem witness_TableFaultIsRaisedAndUnreachable :
    (∃ t ∈ (PermTable.mk [2] : PermTable 1 2).entries, 2 ≤ t) ∧ Live State.reset ∧ State.reset.flt ≠ 3#4 ∧
    (∃ t, exec (.rdkey 0#4) State.reset = .next t) ∧ ∃ t, step (presented State.reset 0x0D#8 0#64 0#64) = .next t :=
  ⟨by decide, rfl, by decide, ⟨_, rfl⟩, _, rfl⟩
/-- Bit 7 is named by no entry of PC-1 in direct mode, bit 0 by none in complement mode. -/
theorem witness_EngineIsLinearAndIgnoresUnnamedBits :
    (∀ n, n ∈ tPC1.entries → (0#64).getLsbD n = (0x80#64).getLsbD n) ∧
    ∀ n, n ∈ tPC1.entries → (0#64).getLsbD (64 - 1 - n) = (0x01#64).getLsbD (64 - 1 - n) := by decide +kernel
theorem witness_EngineModesAreRelated :
    let T' : PermTable 32 32 := ⟨(List.range 32).map fun j => 32 - 1 - tP.entries.getD (32 - 1 - j) 0⟩
    tP.entries.length = 32 ∧ T'.entries.length = 32 ∧
      ∀ j, j < 32 → T'.entries.getD j 0 = 32 - 1 - tP.entries.getD (32 - 1 - j) 0 := by decide +kernel
theorem witness_PermutationTablesAreBijections : ([1, 2, 0] : List Nat).Perm (List.range 3) := by decide
theorem witness_EngineComputesTheStandardFunctions : 0 < 32 ∧ 63 < 64 ∧ 47 < 48 ∧ 31 < 32 ∧ 55 < 56 := by decide

theorem witness_IpPermutesTheBlock : Live keyed ∧ 63 < 64 := ⟨rfl, by decide⟩
theorem witness_FpPermutesTheBlock : Live keyed := rfl
theorem witness_PboxPermutesTheLowHalf : Live { keyed with din := 0xFFFFFFFF80000000#64 } := rfl
theorem witness_PboxinvPermutesTheLowHalf : Live { keyed with din := 0xFFFFFFFF80000000#64 } := rfl
theorem witness_ExpandSelectsOverlappingGroups : Live keyed ∧ 7 < 8 ∧ 5 < 6 := ⟨rfl, by decide⟩
theorem witness_Pc1SelectsTheKeyBits : Live keyed ∧ SameEffectiveKey 0x3032343234363236#64 0x3133353335373337#64 :=
  ⟨rfl, parity_witness⟩
theorem witness_Pc2SelectsTheRoundKeyBits : Live keyed ∧
    (∀ i < 56, i ∉ [47, 38, 34, 31, 21, 18, 13, 2] → (0#56).getLsbD i = (0x00804480242004#56).getLsbD i) ∧
    (0xFFFFFFF0000000#56).extractLsb' 28 28 = (0xFFFFFFFFFFFFFF#56).extractLsb' 28 28 ∧
    (0x0000000FFFFFFF#56).extractLsb' 0 28 = (0xFFFFFFFFFFFFFF#56).extractLsb' 0 28 :=
  ⟨rfl, by decide +kernel⟩
theorem witness_BpermAppliesTheChosenTable : Live keyed ∧ (0#3 : BitVec 3) ≠ 7#3 ∧ (6#3 : BitVec 3) ≠ 7#3 :=
  ⟨rfl, by decide⟩

/-- The halves the schedule itself goes through are two such sequences. -/
theorem witness_KeyScheduleFollowsItsRounds :
    let C := fun r => (keyHalves 0x133457799BBCDFF1#64 r).1
    let D := fun r => (keyHalves 0x133457799BBCDFF1#64 r).2
    C 0 = (permutedChoice1 0x133457799BBCDFF1#64).extractLsb' 28 28 ∧
    D 0 = (permutedChoice1 0x133457799BBCDFF1#64).extractLsb' 0 28 ∧
    ∀ r, 1 ≤ r → r ≤ 16 → C r = rol28 (C (r - 1)) (rot.getD (r - 1) 0) ∧ D r = rol28 (D (r - 1)) (rot.getD (r - 1) 0) := by
  refine ⟨rfl, rfl, fun r h _ => ?_⟩
  obtain ⟨r, rfl⟩ : ∃ m, r = m + 1 := ⟨r - 1, by omega⟩
  exact ⟨rfl, rfl⟩
theorem witness_GenkeysWritesTheSchedule : Live { State.reset with kin := 0x0101010101010101#64 } ∧
    SameEffectiveKey 0x3032343234363236#64 0x3133353335373337#64 := ⟨rfl, parity_witness⟩
/-- Two keys with equal C0 and two with equal D0 (section 2.3), and the boundary round and bit. -/
theorem witness_KeyScheduleRotationsReturnAndComplement :
    16 ≤ 16 ∧ 27 < 28 ∧ (keyHalves 0#64 0).1 = (keyHalves 0x0200000000000000#64 0).1 ∧
    (keyHalves 0#64 0).2 ≠ (keyHalves 0x0200000000000000#64 0).2 ∧
    (keyHalves 0#64 0).2 = (keyHalves 0x8000000000000000#64 0).2 ∧
    (keyHalves 0#64 0).1 ≠ (keyHalves 0x8000000000000000#64 0).1 := by decide +kernel
theorem witness_RdkeyReadsTheFileOrRaisesInvalid :
    Live keyed ∧ keyed.rk = some (keySchedule 0x133457799BBCDFF1#64) ∧ Live State.reset ∧ State.reset.rkv = 0#1 ∧
    ∃ t, exec .encrypt State.reset = .next t := ⟨rfl, rfl, rfl, rfl, _, rfl⟩
theorem witness_RdkeyAnswersTheMostRecentSchedule :
    Live { keyed with incoming := [.command ⟨0x08#8, 1#64, 0#64⟩, .command ⟨0xF9#8, 0#64, 0#64⟩] } ∧
    Live { keyed with incoming := [.command ⟨0x08#8, 1#64, 0#64⟩, .command ⟨0x08#8, 1#64, 0#64⟩] } ∧
    Live { keyed with incoming := [.command ⟨0x08#8, 1#64, 0#64⟩, .command ⟨0x0C#8, 2#64, 3#64⟩,
      .command ⟨0x09#8, 0#64, 0#64⟩] } ∧ 0xF9#8 = (15#4 : U4) ++ 0x9#4 ∧ 0x09#8 = (0#4 : U4) ++ 0x9#4 :=
  ⟨rfl, rfl, rfl, by decide⟩

theorem witness_FeistelFollowsItsSteps :
    Live { State.reset with kin := 0xFFFF000000000000#64, din := 0xFFFFFFFF00000000#64 } ∧ 7 < 8 :=
  ⟨rfl, by decide⟩
/-- (b): two pairs with one mixed value; (d): keys that differ in group 0, or 7, only, and an output bit outside it. -/
theorem witness_FeistelLaws :
    expansion 0#32 ^^^ 0xFFFFFFFFFFFF#48 = expansion 0xFFFFFFFF#32 ^^^ 0#48 ∧
    (∀ b, b < 48 → b / 6 ≠ 0 → (0#48).getLsbD b = (0x00000000003F#48).getLsbD b) ∧
    (∀ b, b < 48 → b / 6 ≠ 7 → (0#48).getLsbD b = (0xFC0000000000#48).getLsbD b) ∧
    tP.entries.getD 0 0 / 4 ≠ 0 ∧ tP.entries.getD 31 0 / 4 ≠ 7 := by decide +kernel
theorem witness_IsoroundIsRoundOne : Live { State.reset with kin := 0x502cacc603c7#64 } := rfl
theorem witness_EncryptFollowsItsSteps : Live { State.reset with kin := 0x3032343234363236#64 } ∧ 15 ≤ 15 ∧ 16 ≤ 16 ∧
    (∃ t, exec .encrypt State.reset = .next t) ∧ ∃ u, exec .genkeys State.reset = .next u :=
  ⟨rfl, by decide, by decide, ⟨_, rfl⟩, _, rfl⟩

/-- The halves of the DES standard's network for one key and block. -/
def network (key block : U64) : Nat → U32 × U32
  | 0 => (high32 (initialPermutation block), low32 (initialPermutation block))
  | r + 1 =>
    let p := network key block r
    (p.2, p.1 ^^^ permute32 (substitute (expansion p.2 ^^^ (keySchedule key).getD r 0#48)))
theorem witness_EncryptIsTheStandardFeistelNetwork :
    let key := 0x3032343234363236#64
    let block := 0x1122334455667788#64
    let L := fun r => (network key block r).1
    let R := fun r => (network key block r).2
    L 0 ++ R 0 = initialPermutation block ∧
    ∀ r, 1 ≤ r → r ≤ 16 → L r = R (r - 1) ∧
      R r = L (r - 1) ^^^ permute32 (substitute (expansion (R (r - 1)) ^^^ (keySchedule key).getD (r - 1) 0#48)) := by
  refine ⟨by decide +kernel, fun r h _ => ?_⟩
  obtain ⟨r, rfl⟩ : ∃ m, r = m + 1 := ⟨r - 1, by omega⟩
  exact ⟨rfl, rfl⟩
theorem witness_EncryptIgnoresParityBits : SameEffectiveKey 0x3032343234363236#64 0x3133353335373337#64 := parity_witness
theorem witness_AssemblerLinesEncodeTheirCommands :
    WellFormed (asmInstr (.bperm 6#3 .direct 1#64)) = true ∧ kinUsed (asmInstr (.ip 1#64)) = 0#64 ∧
    dinUsed (asmInstr (.genkeys 1#64)) = 0#64 ∧ WellFormed (asmInstr (.genkeys 1#64)) = true := by decide
theorem witness_InstancesAreIndependent :
    ([State.reset, presented keyed 0x0D#8 0#64 0#64] : List State)[1]? = some (presented keyed 0x0D#8 0#64 0#64) ∧
    (∃ t, step (presented keyed 0x0D#8 0#64 0#64) = .next t) ∧ (0 : Nat) ≠ 1 := ⟨rfl, ⟨_, rfl⟩, by decide⟩

end Sys2Proof.Tests
end

section
/-! PROOFS. The engine read entry by entry (R50), the stored forms of the tables (R22), and O26 from the two. -/

namespace Sys2Proof.Machine
open Sys2Proof.Claim

/-! ### R50, entry by entry -/

/-- In direct mode output bit `i` is input bit `T[i]`. -/
theorem bpe_direct_getLsbD {W S : Nat} {T : PermTable W S} (hT : tableInRange T = true) (x : BitVec S) {i : Nat}
    (hi : i < W) : (bpe T .direct x).getLsbD i = x.getLsbD (T.entries.getD i 0) := by
  obtain ⟨hlen, -⟩ := (tableInRange_iff T).1 hT
  have hi' : i < T.entries.length := by omega
  rw [bpe_getLsbD]
  simp [sources, hi, hi']

/-- In complement-indexed mode output bit `W-1-i` is input bit `S-1-T[i]`. -/
theorem bpe_complement_getLsbD {W S : Nat} {T : PermTable W S} (hT : tableInRange T = true) (x : BitVec S) {i : Nat}
    (hi : i < W) : (bpe T .complement x).getLsbD (W - 1 - i) = x.getLsbD (S - 1 - T.entries.getD i 0) := by
  obtain ⟨hlen, -⟩ := (tableInRange_iff T).1 hT
  have hout : W - 1 - i < W := by omega
  have hflip : W - 1 - (W - 1 - i) = i := by omega
  rw [bpe_getLsbD]
  simp [sources, hout, hlen, hflip, hi]

/-! ### R22, the stored forms -/

/-- R22, a table stored for direct mode: the standard's list reversed and counted from the least significant end. -/
abbrev StoredDirect {W S : Nat} (T : PermTable W S) (std : List Nat) : Prop :=
  ∀ i < W, T.entries.getD i 0 = S - std.getD (W - 1 - i) 0

/-- R22, a table stored for complement-indexed mode: the standard's list counted from 0. -/
abbrev StoredComplement {W S : Nat} (T : PermTable W S) (std : List Nat) : Prop :=
  ∀ i < W, std.getD i 0 = T.entries.getD i 0 + 1

theorem tIP_storedDirect : StoredDirect tIP stdIP := by decide
theorem tFP_storedDirect : StoredDirect tFP stdFP := by decide
theorem tE_storedDirect : StoredDirect tE stdE := by decide
theorem tP_storedDirect : StoredDirect tP stdP := by decide
theorem tPC1_storedComplement : StoredComplement tPC1 stdPC1 := by decide
theorem tPC2_storedComplement : StoredComplement tPC2 stdPC2 := by decide

/-! ### R6, the standard's numbering -/

/-- A table stored for direct mode computes, in that mode, the function of the standard's list. -/
theorem StoredDirect.bpe_getLsbD {W S : Nat} {T : PermTable W S} {std : List Nat} (h : StoredDirect T std)
    (hT : tableInRange T = true) (x : BitVec S) {q : Nat} (hq : q < W) :
    (bpe T .direct x).getLsbD (W - (q + 1)) = x.getLsbD (S - std.getD q 0) := by
  have hout : W - (q + 1) < W := by omega
  have hflip : W - 1 - (W - (q + 1)) = q := by omega
  rw [bpe_direct_getLsbD hT x hout, h _ hout, hflip]

/-- A table stored for complement-indexed mode computes, in that mode, the function of the standard's list. -/
theorem StoredComplement.bpe_getLsbD {W S : Nat} {T : PermTable W S} {std : List Nat} (h : StoredComplement T std)
    (hT : tableInRange T = true) (x : BitVec S) {q : Nat} (hq : q < W) :
    (bpe T .complement x).getLsbD (W - (q + 1)) = x.getLsbD (S - std.getD q 0) := by
  have hout : W - (q + 1) = W - 1 - q := by omega
  have hsrc : S - std.getD q 0 = S - 1 - T.entries.getD q 0 := by rw [h q hq]; omega
  rw [hout, hsrc, bpe_complement_getLsbD hT x hq]

/-- Settles O26: each table is stored for the mode its function uses (R22), and so computes the standard's list. -/
theorem engineComputesTheStandardFunctions : Obligations.EngineComputesTheStandardFunctions := by
  refine ⟨fun x q hq => ?ip, fun x q hq => ?fp, fun x q hq => ?e, fun x q hq => ?p, fun x q hq => ?pc1,
    fun x q hq => ?pc2⟩
  case ip => exact tIP_storedDirect.bpe_getLsbD tableInRange_tIP x hq
  case fp => exact tFP_storedDirect.bpe_getLsbD tableInRange_tFP x hq
  case e => exact tE_storedDirect.bpe_getLsbD tableInRange_tE x hq
  case p => exact tP_storedDirect.bpe_getLsbD tableInRange_tP x hq
  case pc1 => exact tPC1_storedComplement.bpe_getLsbD tableInRange_tPC1 x hq
  case pc2 => exact tPC2_storedComplement.bpe_getLsbD tableInRange_tPC2 x hq

end Sys2Proof.Machine
end

section
/-! PROOFS. What a step does to the round-key file (R11, R12) and to the fault register and the responses (R14, R41), each
said once for a command, a word and a step; from them O16, O15 and O18, and what reset leaves (O12, O17). -/

namespace Sys2Proof.Machine
open Sys2Proof.Claim

/-- An answer of a command is one of the effects of `CommandEffect`. -/
theorem exec_cases {i : Instr} {s t : State} (h : exec i s = .next t) : CommandEffect i s t := by
  obtain ⟨u, hu, he⟩ := exec_effect i s
  rw [hu] at h; cases h
  exact he

/-! ### The round-key file -/

/-- The word completes as GENKEYS or ENCRYPT: the core is live and the word decodes to one of the two (R11, R99). -/
def WritesFile (cmd : U8) (s : State) : Prop := s.flt = 0#4 ∧ (decode cmd = .ok .genkeys ∨ decode cmd = .ok .encrypt)

theorem WritesKeys.wellFormed {i : Instr} (hi : WritesKeys i) : WellFormed i = true := by
  rcases hi with rfl | rfl <;> rfl

theorem not_writesKeys_rdkey (idx : U4) : ¬ WritesKeys (.rdkey idx) := by simp [WritesKeys]

theorem CommandEffect.rk_of_writes {i : Instr} {s t : State} (he : CommandEffect i s t) (hs : s.flt = 0#4)
    (hi : WritesKeys i) : t.rk = some (keySchedule s.kin) := by
  rcases he with ⟨h, -⟩ | ⟨-, h, -⟩ | ⟨-, -, v, rfl⟩ | ⟨-, h, -⟩ | ⟨-, ⟨idx, rfl⟩, -⟩
  case inl => exact absurd hs h
  case inr.inl => exact absurd hi h
  case inr.inr.inl => rfl
  case inr.inr.inr.inl => exact absurd hi.wellFormed (by simp [h])
  case inr.inr.inr.inr => exact absurd hi (not_writesKeys_rdkey idx)

theorem CommandEffect.rk_of_not_writes {i : Instr} {s t : State} (he : CommandEffect i s t)
    (hi : ¬ (s.flt = 0#4 ∧ WritesKeys i)) : t.rk = s.rk := by
  rcases he with ⟨-, rfl⟩ | ⟨-, -, v, rfl⟩ | ⟨h, hw, -⟩ | ⟨-, -, rfl⟩ | ⟨-, -, -, rfl⟩
  case inr.inr.inl => exact absurd ⟨h, hw⟩ hi
  all_goals rfl

theorem WordEffect.rk_of_writes {cmd : U8} {s t : State} (he : WordEffect cmd s t) (hw : WritesFile cmd s) :
    t.rk = some (keySchedule s.kin) := by
  obtain ⟨hs, hd⟩ := hw
  rcases he with ⟨h, -⟩ | ⟨-, ⟨e, h⟩, -⟩ | ⟨-, i, h, -, he⟩
  · exact absurd hs h
  · simp [h] at hd
  · exact he.rk_of_writes hs (by simpa [h, WritesKeys] using hd)

theorem WordEffect.rk_of_not_writes {cmd : U8} {s t : State} (he : WordEffect cmd s t) (hw : ¬ WritesFile cmd s) :
    t.rk = s.rk := by
  rcases he with ⟨-, rfl⟩ | ⟨-, -, rfl⟩ | ⟨-, i, h, -, he⟩
  · rfl
  · rfl
  · exact he.rk_of_not_writes (by simpa [h, WritesFile, WritesKeys] using hw)

/-- Everything a step can do to the file: idle and every other command leave it, reset takes its values away, GENKEYS and
ENCRYPT write the schedule of their own `kin`. -/
theorem step_rk_cases {s t : State} (h : step s = .next t) :
    (s.incoming = [] ∧ t.rk = s.rk) ∨
    (∃ rest, s.incoming = .reset :: rest ∧ t.rk = none) ∨
    (∃ r rest, s.incoming = .command r :: rest ∧ ¬ WritesFile r.cmd s ∧ t.rk = s.rk) ∨
    ∃ r rest, s.incoming = .command r :: rest ∧ WritesFile r.cmd s ∧ t.rk = some (keySchedule r.kin) := by
  rcases step_cases h with ⟨hi, rfl⟩ | ⟨rest, hi, rfl⟩ | ⟨r, rest, hi, he⟩
  · exact .inl ⟨hi, rfl⟩
  · exact .inr (.inl ⟨rest, hi, rfl⟩)
  · by_cases hw : WritesFile r.cmd s
    · exact .inr (.inr (.inr ⟨r, rest, hi, hw, he.rk_of_writes hw⟩))
    · exact .inr (.inr (.inl ⟨r, rest, hi, hw, he.rk_of_not_writes hw⟩))

/-! ### R12, the key of the file -/

theorem lastKeyAfterStep_of_idle {s : State} (hi : s.incoming = []) (last : Option U64) :
    lastKeyAfterStep last s = last := by simp [lastKeyAfterStep, hi]

theorem lastKeyAfterStep_of_reset {s : State} {rest : List HostEvent} (hi : s.incoming = .reset :: rest)
    (last : Option U64) : lastKeyAfterStep last s = none := by simp [lastKeyAfterStep, hi]

theorem lastKeyAfterStep_of_writes {s : State} {r : Request} {rest : List HostEvent}
    (hi : s.incoming = .command r :: rest) (hw : WritesFile r.cmd s) (last : Option U64) :
    lastKeyAfterStep last s = some r.kin := by
  simp only [lastKeyAfterStep, hi]
  exact if_pos hw

theorem lastKeyAfterStep_of_not_writes {s : State} {r : Request} {rest : List HostEvent}
    (hi : s.incoming = .command r :: rest) (hw : ¬ WritesFile r.cmd s) (last : Option U64) :
    lastKeyAfterStep last s = last := by
  simp only [lastKeyAfterStep, hi]
  exact if_neg hw

/-- The key of the most recent GENKEYS or ENCRYPT, tracked through a step, stays the key of the file. -/
theorem step_rk_eq_lastKey {s t : State} {last : Option U64} (hs : s.rk = last.map keySchedule)
    (h : step s = .next t) : t.rk = (lastKeyAfterStep last s).map keySchedule := by
  rcases step_rk_cases h with ⟨hi, ht⟩ | ⟨rest, hi, ht⟩ | ⟨r, rest, hi, hw, ht⟩ | ⟨r, rest, hi, hw, ht⟩
  · rw [ht, hs, lastKeyAfterStep_of_idle hi]
  · rw [ht, lastKeyAfterStep_of_reset hi, Option.map_none]
  · rw [ht, hs, lastKeyAfterStep_of_not_writes hi hw]
  · rw [ht, lastKeyAfterStep_of_writes hi hw, Option.map_some]

theorem keyFileIsSchedule_iff (s : State) :
    KeyFileIsSchedule s ↔ ∃ last : Option U64, s.rk = last.map keySchedule := by
  constructor
  · intro hs
    cases hk : s.rk with
    | none => exact ⟨none, rfl⟩
    | some ks =>
      obtain ⟨key, rfl⟩ := hs ks hk
      exact ⟨some key, rfl⟩
  · rintro ⟨last, hs⟩ ks hk
    cases last with
    | none => simp [hs] at hk
    | some key => exact ⟨key, by simpa [hs] using hk.symm⟩

theorem step_keeps_keyFileIsSchedule {s t : State} (hs : KeyFileIsSchedule s) (h : step s = .next t) :
    KeyFileIsSchedule t := by
  obtain ⟨last, hs⟩ := (keyFileIsSchedule_iff s).1 hs
  exact (keyFileIsSchedule_iff t).2 ⟨_, step_rk_eq_lastKey hs h⟩

/-- Settles O16: a step moves the file and the tracked key together, so a file that is a schedule stays one. -/
theorem stepKeepsKeyFileTheMostRecentSchedule : Obligations.StepKeepsKeyFileTheMostRecentSchedule := by
  refine ⟨fun s t last => step_rk_eq_lastKey, fun s t => step_keeps_keyFileIsSchedule, fun s hs hv => ?_⟩
  obtain ⟨ks, hk⟩ := (State.rkv_eq_one_iff s).1 hv
  obtain ⟨key, rfl⟩ := hs ks hk
  exact ⟨key, fun i => ⟨_, hk, rfl⟩⟩

/-! ### R11, who writes the file -/

theorem step_command_answers {s : State} {r : Request} {rest : List HostEvent} (hi : s.incoming = .command r :: rest) :
    ∃ t, step s = .next t := by
  obtain ⟨t, ht, -⟩ := runWord_effect r.cmd (State.presentOperands { s with incoming := rest } r)
  exact ⟨t, (step_command hi).trans ht⟩

theorem step_rk_of_writes {s t : State} {r : Request} {rest : List HostEvent} (hi : s.incoming = .command r :: rest)
    (hw : WritesFile r.cmd s) (h : step s = .next t) : t.rk = some (keySchedule r.kin) := by
  rcases step_rk_cases h with ⟨hi', -⟩ | ⟨_, hi', -⟩ | ⟨_, _, hi', hn, -⟩ | ⟨_, _, hi', -, ht⟩ <;>
    rw [hi] at hi' <;> cases hi'
  · exact absurd hw hn
  · exact ht

theorem CommandEffect.flt_of_writes {i : Instr} {s t : State} (he : CommandEffect i s t) (hi : WritesKeys i) :
    t.flt = s.flt := by
  rcases he with ⟨-, rfl⟩ | ⟨-, -, v, rfl⟩ | ⟨-, -, v, rfl⟩ | ⟨-, h, -⟩ | ⟨-, ⟨idx, rfl⟩, -⟩
  case inr.inr.inr.inl => exact absurd hi.wellFormed (by simp [h])
  case inr.inr.inr.inr => exact absurd hi (not_writesKeys_rdkey idx)
  all_goals rfl

/-- R86: two commands that write the file leave the same file and `FLT`, live or halted. -/
theorem rk_flt_eq_of_writes {i j : Instr} {s t u : State} (hi : WritesKeys i) (hj : WritesKeys j)
    (ht : CommandEffect i s t) (hu : CommandEffect j s u) : t.rk = u.rk ∧ t.flt = u.flt := by
  refine ⟨?_, (ht.flt_of_writes hi).trans (hu.flt_of_writes hj).symm⟩
  by_cases hs : s.flt = 0#4
  · rw [ht.rk_of_writes hs hi, hu.rk_of_writes hs hj]
  · rw [ht.rk_of_not_writes fun h => hs h.1, hu.rk_of_not_writes fun h => hs h.1]

/-- Settles O18, each clause from what one step or one command does to the file. -/
theorem keyFileWrittenOnlyByGenkeysAndEncrypt : Obligations.KeyFileWrittenOnlyByGenkeysAndEncrypt := by
  refine ⟨fun s r rest hi hs hd => ?writes, fun s t u ht hu => ?same, fun s t h => ?only⟩
  case writes =>
    obtain ⟨t, ht⟩ := step_command_answers hi
    have hk := step_rk_of_writes hi ⟨hs, hd⟩ ht
    exact ⟨t, ht, hk, State.rkv_of_some hk⟩
  case same => exact rk_flt_eq_of_writes (.inr rfl) (.inl rfl) (exec_cases ht) (exec_cases hu)
  case only =>
    rcases step_rk_cases h with ⟨-, ht⟩ | ⟨rest, hi, ht⟩ | ⟨-, -, -, -, ht⟩ | ⟨r, rest, hi, ⟨hs, hd⟩, -⟩
    · exact .inl ht
    · exact .inr (.inl ⟨rest, hi, ht⟩)
    · exact .inl ht
    · exact .inr (.inr ⟨r, rest, hi, hs, hd⟩)

/-! ### The fault register and the responses -/

/-- `t` is `s` after one command's answer: `FLT` stands or takes code 1 or 2, and the one new response has `FLT` as its
status, with `dout = 0` where that is not 0 (R14, R40, R41). -/
def AnswersWithFlt (s t : State) : Prop :=
  (t.flt = s.flt ∨ t.flt = 1#4 ∨ t.flt = 2#4) ∧
    ∃ dout : U64, t.responses = s.responses ++ [⟨t.flt, dout⟩] ∧ (t.flt ≠ 0#4 → dout = 0#64)

theorem answersWithFlt_answerHalted (s : State) : AnswersWithFlt s s.answerHalted :=
  ⟨.inl rfl, 0#64, rfl, fun _ => rfl⟩

theorem answersWithFlt_respond {s : State} (hs : s.flt = 0#4) (v : U64) : AnswersWithFlt s (s.respond 0#4 v) :=
  ⟨.inl rfl, v, by simp [hs], fun h => absurd hs h⟩

theorem answersWithFlt_illegalCommand (s : State) : AnswersWithFlt s (s.takeFault .illegalCommand) :=
  ⟨.inr (.inl rfl), 0#64, rfl, fun _ => rfl⟩

theorem answersWithFlt_roundKeyInvalid (s : State) : AnswersWithFlt s (s.takeFault .roundKeyInvalid) :=
  ⟨.inr (.inr rfl), 0#64, rfl, fun _ => rfl⟩

theorem CommandEffect.answersWithFlt {i : Instr} {s t : State} (he : CommandEffect i s t) : AnswersWithFlt s t := by
  rcases he with ⟨-, rfl⟩ | ⟨hs, -, v, rfl⟩ | ⟨hs, -, v, rfl⟩ | ⟨-, -, rfl⟩ | ⟨-, -, -, rfl⟩
  · exact answersWithFlt_answerHalted s
  · exact answersWithFlt_respond hs v
  · exact answersWithFlt_respond (s := s.writeRoundKeys _) hs v
  · exact answersWithFlt_illegalCommand s
  · exact answersWithFlt_roundKeyInvalid s

theorem WordEffect.answersWithFlt {cmd : U8} {s t : State} (he : WordEffect cmd s t) : AnswersWithFlt s t := by
  rcases he with ⟨-, rfl⟩ | ⟨-, -, rfl⟩ | ⟨-, i, -, -, he⟩
  · exact answersWithFlt_answerHalted s
  · exact answersWithFlt_illegalCommand s
  · exact he.answersWithFlt

theorem AnswersWithFlt.keeps_legal {s t : State} (h : AnswersWithFlt s t) (hf : FaultRegisterLegal s)
    (hr : ResponsesLegal s) : FaultRegisterLegal t ∧ ResponsesLegal t := by
  obtain ⟨hflt, dout, hresp, hdout⟩ := h
  have hft : FaultRegisterLegal t := by
    rcases hflt with h | h | h
    · exact (h ▸ hf : t.flt = 0#4 ∨ t.flt = 1#4 ∨ t.flt = 2#4)
    · exact .inr (.inl h)
    · exact .inr (.inr h)
  refine ⟨hft, fun a ha => ?_⟩
  rw [hresp, List.mem_append, List.mem_singleton] at ha
  rcases ha with ha | rfl
  · exact hr a ha
  · exact ⟨hft, hdout⟩

/-- Settles O15: idle changes nothing, reset clears `FLT`, and a command's one response has the new `FLT` as its status. -/
theorem stepKeepsFaultRegisterLegal : Obligations.StepKeepsFaultRegisterLegal := by
  intro s t hf hr h
  rcases step_cases h with ⟨-, rfl⟩ | ⟨rest, -, rfl⟩ | ⟨r, rest, -, he⟩
  · exact ⟨hf, hr⟩
  · exact ⟨.inl rfl, hr⟩
  · exact he.answersWithFlt.keeps_legal hf hr

/-! ### Reset -/

/-- Settles O12: every field of the reset state by its value, `RKV` and the registers by `rk = none`. -/
theorem resetStateValues : Obligations.ResetStateValues :=
  ⟨rfl, State.readRoundKey_of_none rfl, State.rkv_of_none rfl, rfl, rfl, rfl⟩

/-- Settles O17: no key file, no response, and `FLT = 0`. -/
theorem resetMeetsInvariants : Obligations.ResetMeetsInvariants := by
  have hkey : KeyFileIsSchedule State.reset := (keyFileIsSchedule_iff _).2 ⟨none, rfl⟩
  exact ⟨.inl rfl, List.forall_mem_nil _, hkey, rfl, hkey⟩

end Sys2Proof.Machine
end

section
/-! PROOFS. The constant tables: their shapes (O24), the paired tables (O28), the stored forms (O25), the SBoxes (O27). -/

namespace Sys2Proof.Machine
open Sys2Proof.Claim

/-! ### The permutation tables -/

/-- Settles O24: sizes and ranges are the engine's check (R50), the rest is read off the tables. -/
theorem tablesHaveTheirShapes : Obligations.TablesHaveTheirShapes := by
  obtain ⟨lenIP, ltIP⟩ := (tableInRange_iff tIP).1 tableInRange_tIP
  obtain ⟨lenFP, ltFP⟩ := (tableInRange_iff tFP).1 tableInRange_tFP
  obtain ⟨lenE, ltE⟩ := (tableInRange_iff tE).1 tableInRange_tE
  obtain ⟨lenP, ltP⟩ := (tableInRange_iff tP).1 tableInRange_tP
  obtain ⟨lenPINV, ltPINV⟩ := (tableInRange_iff tPINV).1 tableInRange_tPINV
  obtain ⟨lenPC1, ltPC1⟩ := (tableInRange_iff tPC1).1 tableInRange_tPC1
  obtain ⟨lenPC2, ltPC2⟩ := (tableInRange_iff tPC2).1 tableInRange_tPC2
  refine ⟨⟨lenIP, lenFP, lenE, lenP, lenPINV, lenPC1, lenPC2⟩,
    ⟨ltIP, ltFP, ltE, ltP, ltPINV, ltPC1, ltPC2⟩, ?omitPC1, ?omitPC2, ?firstHalf, ?secondHalf, rfl, rfl⟩
  case omitPC1 => decide
  case omitPC2 => decide
  case firstHalf => decide
  case secondHalf => decide

/-- `U` undoes `T` on the index set `0..n-1` (R28). -/
abbrev UndoesTable {n : Nat} (U T : PermTable n n) : Prop := ∀ i < n, U.entries.getD (T.entries.getD i 0) 0 = i

theorem tFP_undoes_tIP : UndoesTable tFP tIP := by decide
theorem tIP_undoes_tFP : UndoesTable tIP tFP := by decide
theorem tPINV_undoes_tP : UndoesTable tPINV tP := by decide
theorem tP_undoes_tPINV : UndoesTable tP tPINV := by decide

/-- A table in range that another undoes has no entry twice, and so is a bijection on its index set. -/
theorem UndoesTable.perm_range {n : Nat} {U T : PermTable n n} (h : UndoesTable U T) (hT : tableInRange T = true) :
    T.entries.Perm (List.range n) := by
  obtain ⟨hlen, hlt⟩ := (tableInRange_iff T).1 hT
  have hinj : ∀ i j (hi : i < T.entries.length) (hj : j < T.entries.length), T.entries[i] = T.entries[j] → i = j := by
    intro i j hi hj hij
    have hui := h i (hlen ▸ hi)
    have huj := h j (hlen ▸ hj)
    rw [List.getD_eq_getElem _ _ hi] at hui
    rw [List.getD_eq_getElem _ _ hj] at huj
    rw [← hui, ← huj, hij]
  have hnodup : T.entries.Nodup := List.nodup_iff_injective_get.2 fun i j hij => Fin.ext (hinj i j i.2 j.2 hij)
  have hsub : T.entries ⊆ List.range n := fun t ht => List.mem_range.2 (hlt t ht)
  exact (List.subperm_of_subset hnodup hsub).perm_of_length_le (by simp [hlen])

/-- Settles O28: each pair undoes each other, and a table that is undone is a bijection. -/
theorem pairedTablesAreInverse : Obligations.PairedTablesAreInverse := by
  refine ⟨fun i hi => ⟨tFP_undoes_tIP i hi, tIP_undoes_tFP i hi⟩, fun i hi => ⟨tPINV_undoes_tP i hi, tP_undoes_tPINV i hi⟩,
    tFP_undoes_tIP.perm_range tableInRange_tIP, tIP_undoes_tFP.perm_range tableInRange_tFP,
    tPINV_undoes_tP.perm_range tableInRange_tP, tP_undoes_tPINV.perm_range tableInRange_tPINV,
    rfl, rfl, rfl, rfl, ?repeats, ⟨7, ?omitPC1⟩, ⟨8, ?omitPC2⟩⟩
  case repeats => decide
  case omitPC1 => decide
  case omitPC2 => decide

theorem StoredComplement.entry_eq {W S : Nat} {T : PermTable W S} {std : List Nat} (h : StoredComplement T std) :
    ∀ i < W, T.entries.getD i 0 = std.getD i 0 - 1 := fun i hi => by rw [h i hi, Nat.add_sub_cancel]

/-- Settles O25: each table is stored for its mode (R22), and the lists of the last clauses are compared entry by entry. -/
theorem storedFormsFollowTheStandard : Obligations.StoredFormsFollowTheStandard := by
  refine ⟨tIP_storedDirect, tFP_storedDirect, tE_storedDirect, tP_storedDirect, tPINV_undoes_tP,
    tPC1_storedComplement.entry_eq, tPC2_storedComplement.entry_eq, ?ip, ?fp, ?e, ?p⟩
  case ip => decide
  case fp => decide
  case e => decide
  case p => decide

/-! ### The SBoxes -/

theorem sboxes_entries_lt : ∀ b ∈ sboxes, b.length = 64 ∧ ∀ v ∈ b, v < 16 := by decide

/-- A looked-up value is the stored entry, which fits in the four bits. -/
theorem sbox_toNat (k : Fin 8) (g : U6) : (sbox k.val g).toNat = (sboxes.getD k.val []).getD g.toNat 0 := by
  have hk : k.val < sboxes.length := k.isLt
  obtain ⟨hlen, hlt⟩ := sboxes_entries_lt _ (List.getElem_mem hk)
  have hg : g.toNat < sboxes[k.val].length := hlen ▸ g.isLt
  rw [sbox, List.getD_eq_getElem _ _ hk, List.getD_eq_getElem _ _ hg, BitVec.toNat_ofNat]
  exact Nat.mod_eq_of_lt (hlt _ (List.getElem_mem hg))

/-- Place `g` of a box holds the standard's printed entry at row `g[5] g[0]`, column `g[4:1]` (R26). -/
theorem sboxes_stored_by_group : ∀ (k : Fin 8) (g : U6), (sboxes.getD k.val []).getD g.toNat 0 =
    (stdS.getD k.val []).getD (16 * (2 * (g.getLsbD 5).toNat + (g.getLsbD 0).toNat) + (g.extractLsb' 1 4).toNat) 0 := by
  decide +kernel

/-- Settles O27: a lookup is the stored entry, and the stored entry is the printed one. -/
theorem sBoxesAreTheStandardBoxes : Obligations.SBoxesAreTheStandardBoxes :=
  ⟨rfl, sboxes_entries_lt, fun k g => (sbox_toNat k g).trans (sboxes_stored_by_group k g)⟩

end Sys2Proof.Machine
end

section
/-! PROOFS. What a command leaves unchanged (R34, R43): the ports in every case, the file and `FLT` by which effect it had;
from these O21, and O10, the one response of a command (R40, R115). -/

namespace Sys2Proof.Machine

/-- The operand ports and what the host will present are the same in `t` as in `s`. -/
def KeepsPorts (s t : State) : Prop := t.kin = s.kin ∧ t.din = s.din ∧ t.incoming = s.incoming

theorem CommandEffect.keepsPorts {i : Instr} {s t : State} (he : CommandEffect i s t) : KeepsPorts s t := by
  rcases he with ⟨-, rfl⟩ | ⟨-, -, v, rfl⟩ | ⟨-, -, v, rfl⟩ | ⟨-, -, rfl⟩ | ⟨-, -, -, rfl⟩ <;>
    exact ⟨rfl, rfl, rfl⟩

theorem WordEffect.keepsPorts {cmd : U8} {s t : State} (he : WordEffect cmd s t) : KeepsPorts s t := by
  rcases he with ⟨-, rfl⟩ | ⟨-, -, rfl⟩ | ⟨-, i, -, -, he⟩
  · exact ⟨rfl, rfl, rfl⟩
  · exact ⟨rfl, rfl, rfl⟩
  · exact he.keepsPorts

theorem AnswersWithFlt.one_response {s t : State} (h : AnswersWithFlt s t) :
    ∃ a, t.responses = s.responses ++ [a] := by
  obtain ⟨-, dout, hresp, -⟩ := h
  exact ⟨_, hresp⟩

/-- A nonzero `FLT` stands through every command: a halted core gives the halted answer (R99). -/
theorem CommandEffect.flt_eq_or_live {i : Instr} {s t : State} (he : CommandEffect i s t) :
    t.flt = s.flt ∨ s.flt = 0#4 := by
  rcases he with ⟨-, rfl⟩ | ⟨hs, -⟩ | ⟨hs, -⟩ | ⟨hs, -⟩ | ⟨hs, -⟩
  case inl => exact .inl rfl
  all_goals exact .inr hs

/-- The two effects that write `FLT` are those of an ill-formed BPERM and of RDKEY. -/
theorem CommandEffect.flt_of_wellFormed {i : Instr} {s t : State} (he : CommandEffect i s t)
    (hi : ∀ idx, i ≠ .rdkey idx) (hw : WellFormed i = true) : t.flt = s.flt := by
  rcases he with ⟨-, rfl⟩ | ⟨-, -, v, rfl⟩ | ⟨-, -, v, rfl⟩ | ⟨-, h, -⟩ | ⟨-, ⟨idx, h⟩, -⟩
  case inr.inr.inr.inl => exact absurd hw (by simp [h])
  case inr.inr.inr.inr => exact absurd h (hi idx)
  all_goals rfl

/-- Settles O21: the frame of each effect a command can have. -/
theorem commandFrame : Obligations.CommandFrame := by
  refine ⟨fun i s t hg hn h => ?others, fun i s t hi hw h => ?flt, fun i s t hi h => ?writers⟩
  case others =>
    have he := exec_cases h
    obtain ⟨hkin, hdin, hinc⟩ := he.keepsPorts
    have hi : ¬ WritesKeys i := fun hi => hi.elim hg hn
    exact ⟨he.rk_of_not_writes fun h => hi h.2, hkin, hdin, hinc, he.answersWithFlt.one_response, he.flt_eq_or_live⟩
  case flt => exact (exec_cases h).flt_of_wellFormed hi hw
  case writers =>
    have he := exec_cases h
    obtain ⟨hkin, hdin, hinc⟩ := he.keepsPorts
    exact ⟨hkin, hdin, hinc, he.flt_of_writes hi, he.answersWithFlt.one_response⟩

/-- Settles O10: the word runs with only its own command taken, leaves the ports, and its one response carries `FLT`. -/
theorem oneResponsePerCommand : Obligations.OneResponsePerCommand := by
  intro s r rest hi
  obtain ⟨t, ht, he⟩ := runWord_effect r.cmd (State.presentOperands { s with incoming := rest } r)
  obtain ⟨-, -, hinc⟩ := he.keepsPorts
  obtain ⟨-, dout, hresp, hdout⟩ := he.answersWithFlt
  exact ⟨t, ⟨t.flt, dout⟩, (step_command hi).trans ht, hresp, hinc, rfl, hdout⟩

end Sys2Proof.Machine
end

section
/-! PROOFS. The command word (R42 to R48): its two fields, the round trip (O2, O3), the words that decode (O1, O4), the
step of a word that decodes (O6), the BPERM forms (O43) and the assembler lines (O59). -/

namespace Sys2Proof.Machine
open Sys2Proof.Claim

/-! ### The two fields of a word (R42) -/

@[simp] theorem opField_append (sel op : U4) : opField (sel ++ op) = op :=
  BitVec.extractLsb'_append_eq_right

@[simp] theorem selField_append (sel op : U4) : selField (sel ++ op) = sel :=
  BitVec.extractLsb'_append_eq_left

/-- A word is its `SEL` over its `OP`. -/
theorem selField_append_opField (w : U8) : selField w ++ opField w = w :=
  BitVec.extractLsb'_append_extractLsb' (w := 4) (len := 4)

theorem opField_encode (i : Instr) : opField (encode i) = opOf i := opField_append _ _

theorem selField_encode (i : Instr) : selField (encode i) = selOf i := selField_append _ _

theorem encode_eq_iff (i : Instr) (w : U8) : encode i = w ↔ selOf i = selField w ∧ opOf i = opField w := by
  constructor
  · rintro rfl
    exact ⟨(selField_encode i).symm, (opField_encode i).symm⟩
  · rintro ⟨hsel, hop⟩
    rw [encode, hsel, hop, selField_append_opField]

/-- BPERM's `SEL` read as its mode over its table id (R44). -/
theorem modeBit_append_tselField (sel : U4) : modeBit (modeField sel) ++ tselField sel = sel := by
  revert sel; decide

@[simp] theorem tselField_append (mode : Mode) (tsel : BitVec 3) : tselField (modeBit mode ++ tsel) = tsel := by
  revert tsel; cases mode <;> decide

@[simp] theorem modeField_append (mode : Mode) (tsel : BitVec 3) : modeField (modeBit mode ++ tsel) = mode := by
  revert tsel; cases mode <;> decide

theorem tsel_cases (tsel : BitVec 3) : tsel = 0#3 ∨ tsel = 1#3 ∨ tsel = 2#3 ∨ tsel = 3#3 ∨ tsel = 4#3 ∨
    tsel = 5#3 ∨ tsel = 6#3 ∨ tsel = 7#3 := by revert tsel; decide

/-! ### The round trip -/

theorem withoutSel_eq_ok_iff (sel : U4) (i j : Instr) : withoutSel sel i = .ok j ↔ sel = 0#4 ∧ i = j := by
  by_cases h : sel = 0#4 <;> simp [withoutSel, h]

/-- The two fields of the word are `opOf i` and `selOf i`, and on those the decoder answers `i`. -/
theorem decode_encode {i : Instr} (hw : WellFormed i = true) : decode (encode i) = .ok i := by
  rw [decode, opField_encode, selField_encode]
  cases i with
  | bperm tsel mode =>
    have hid : tsel ≠ 7#3 := by simpa [WellFormed] using hw
    simp [opOf, selOf, hid]
  | _ => rfl

/-- A command that demands `SEL = 0` is read back from the word with its `OP`. -/
theorem encode_of_withoutSel {w : U8} {i j : Instr} (hsel : selOf i = 0#4) (hw : WellFormed i = true)
    (hop : (opField w).toNat = (opOf i).toNat) (h : withoutSel (selField w) i = .ok j) :
    encode j = w ∧ WellFormed j = true := by
  obtain ⟨hzero, rfl⟩ := (withoutSel_eq_ok_iff _ _ _).1 h
  exact ⟨(encode_eq_iff i w).2 ⟨hsel.trans hzero.symm, (BitVec.eq_of_toNat_eq hop).symm⟩, hw⟩

/-- Each branch of the decoder that accepts answers the instruction with the `OP` and the `SEL` of the word. -/
theorem encode_of_decode {w : U8} {i : Instr} (h : decode w = .ok i) : encode i = w ∧ WellFormed i = true := by
  simp only [decode] at h
  split at h
  case h_8 hop =>
    split at h
    case isTrue => cases h
    case isFalse hid =>
      cases h
      refine ⟨(encode_eq_iff _ w).2 ⟨modeBit_append_tselField _, (BitVec.eq_of_toNat_eq hop).symm⟩, ?_⟩
      simpa [WellFormed] using hid
  case h_10 hop =>
    cases h
    exact ⟨(encode_eq_iff _ w).2 ⟨rfl, (BitVec.eq_of_toNat_eq hop).symm⟩, rfl⟩
  case h_14 => cases h
  all_goals exact encode_of_withoutSel rfl rfl (by assumption) h

/-- Settles O2, from the fields of the encoded word. -/
theorem decodeOfEncodeIsTheInstruction : Obligations.DecodeOfEncodeIsTheInstruction := fun _ => decode_encode

/-- Settles O3, branch by branch of the decoder. -/
theorem encodeOfDecodeIsTheWord : Obligations.EncodeOfDecodeIsTheWord := fun _ _ => encode_of_decode

/-! ### The words that decode -/

/-- Settles O1: the decoder evaluated on each word. -/
theorem decodesWordsOfOpcodeMap : Obligations.DecodesWordsOfOpcodeMap :=
  ⟨rfl, rfl, rfl, rfl, rfl, rfl, rfl, rfl, rfl, rfl, rfl, rfl⟩

theorem encode_mem_legalWords {i : Instr} (hw : WellFormed i = true) : encode i ∈ legalWords := by
  cases i with
  | bperm tsel mode => revert tsel; cases mode <;> decide
  | rdkey idx => revert idx; decide
  | _ => decide

theorem legalWords_decode : ∀ w ∈ legalWords, (decode w).isOk = true := by decide

/-- Settles O4: a word that decodes is the encoding of a well-formed command, and those are all listed. -/
theorem legalWordsAreFortyOne : Obligations.LegalWordsAreFortyOne := by
  refine ⟨rfl, by decide, fun w => ⟨fun ⟨i, hi⟩ => ?listed, fun hw => ?decodes⟩⟩
  case listed =>
    obtain ⟨rfl, hw⟩ := encode_of_decode hi
    exact encode_mem_legalWords hw
  case decodes =>
    have hok := legalWords_decode w hw
    cases hd : decode w with
    | ok i => exact ⟨i, rfl⟩
    | error e => rw [hd] at hok; cases hok

/-! ### The step of a word that decodes -/

/-- R99: a halted core gives every command the halted answer. -/
theorem exec_of_halted {s : State} (hs : s.flt ≠ 0#4) (i : Instr) : exec i s = .next s.answerHalted := by
  obtain ⟨t, ht, he⟩ := exec_effect i s
  rcases he with ⟨-, rfl⟩ | ⟨h, -⟩ | ⟨h, -⟩ | ⟨h, -⟩ | ⟨h, -⟩
  case inl => exact ht
  all_goals exact absurd h hs

/-- The port's own check for the halted core adds nothing, since `exec` gives the halted answer too. -/
theorem runWord_of_decode {cmd : U8} {i : Instr} (hd : decode cmd = .ok i) (s : State) :
    runWord cmd s = exec i s := by
  by_cases hs : s.flt = 0#4
  · simp [runWord, whenLive_of_live hs, hd]
  · rw [runWord, whenLive_of_halted hs, exec_of_halted hs]

theorem decodeTableWord_eq_some_iff (nbits w : Nat) (i : Instr) :
    decodeTableWord nbits w = some i ↔ decode (BitVec.ofNat 8 (w % 2 ^ nbits)) = .ok i := by
  cases hd : decode (BitVec.ofNat 8 (w % 2 ^ nbits)) <;> simp [decodeTableWord, hd]

/-- Settles O6: the step runs the word at the head of `incoming`, and the word runs the command it decodes to. -/
theorem stepRunsDecodedCommand : Obligations.StepRunsDecodedCommand := by
  refine ⟨fun s r rest i hi hd => ?port, fun s w i hd => ?fetch⟩
  case port => exact (step_command hi).trans (runWord_of_decode hd _)
  case fetch =>
    have hd := (decodeTableWord_eq_some_iff 8 w i).1 hd
    exact (step_command (s.withFetchWord_incoming 8 w)).trans (runWord_of_decode hd _)

/-- Settles O43: both sides are the same call of `permuteCommand`, by R59's list of tables. -/
theorem namedCommandsAreBpermForms : Obligations.NamedCommandsAreBpermForms :=
  fun _ => ⟨rfl, rfl, rfl, rfl, rfl, rfl, rfl⟩

/-! ### The assembler lines -/

/-- Every table has a source, so BPERM names bits of `din`. -/
theorem dinUsed_bperm_ne_zero {tsel : BitVec 3} {mode : Mode} (hw : WellFormed (.bperm tsel mode) = true) :
    dinUsed (.bperm tsel mode) ≠ 0#64 := by
  revert tsel; cases mode <;> decide

/-- A line whose command names no bit of `kin` has no `k=`. -/
theorem asmKin_of_unused {l : AsmLine} (h : kinUsed (asmInstr l) = 0#64) : asmKin l = 0#64 := by
  cases l with
  | genkeys | feistel | isoround | encrypt => exact absurd h (by simp [asmInstr, kinUsed])
  | _ => rfl

/-- A line whose command names no bit of `din` has no `d=`. -/
theorem asmDin_of_unused {l : AsmLine} (hw : WellFormed (asmInstr l) = true) (h : dinUsed (asmInstr l) = 0#64) :
    asmDin l = 0#64 := by
  cases l with
  | genkeys | rdkey => rfl
  | bperm => exact absurd h (dinUsed_bperm_ne_zero hw)
  | _ => exact absurd h (by simp [asmInstr, dinUsed])

/-- The triple of a line from the word of the command `i` it names and its two operands. -/
theorem assemble_eq {l : AsmLine} {cmd : U8} {kin din : U64} (i : Instr) (hi : asmInstr l = i) (hcmd : encode i = cmd)
    (hkin : asmKin l = kin) (hdin : asmDin l = din) : assemble l = ⟨cmd, kin, din⟩ := by
  rw [assemble, hi, hcmd, hkin, hdin]

/-- Settles O59: words by O2, unused ports line by line, and the triple of each form from its three parts. -/
theorem assemblerLinesEncodeTheirCommands : Obligations.AssemblerLinesEncodeTheirCommands := by
  refine ⟨fun l => decode_encode, fun l => asmKin_of_unused, fun l hu hw => asmDin_of_unused hw hu,
    fun d => ⟨?ip, ?fp, ?pbox, ?pboxinv, ?expand, ?pc1, ?pc2⟩, fun tsel d => ⟨rfl, rfl⟩, fun k => ?genkeys,
    fun idx => rfl, fun k r linv => ?feistel, fun k d => ⟨?isoround, ?encrypt⟩, rfl, rfl, rfl⟩
  case ip => exact assemble_eq .ip rfl rfl rfl rfl
  case fp => exact assemble_eq .fp rfl rfl rfl rfl
  case pbox => exact assemble_eq .pbox rfl rfl rfl rfl
  case pboxinv => exact assemble_eq .pboxinv rfl rfl rfl rfl
  case expand => exact assemble_eq .expand rfl rfl rfl rfl
  case pc1 => exact assemble_eq .pc1 rfl rfl rfl rfl
  case pc2 => exact assemble_eq .pc2 rfl rfl rfl rfl
  case genkeys => exact assemble_eq .genkeys rfl rfl rfl rfl
  case feistel => exact assemble_eq .feistel rfl rfl rfl rfl
  case isoround => exact assemble_eq .isoround rfl rfl rfl rfl
  case encrypt => exact assemble_eq .encrypt rfl rfl rfl rfl

end Sys2Proof.Machine
end

section
/-! PROOFS. Operand bits that a command's row does not name have no effect (R42): what a masked comparison of two port
values gives, one command at a time on a live core, and from these O22. -/

namespace Sys2Proof.Machine
open Sys2Proof.Claim

/-- Two port values that differ in none of the low `n` bits have the same low `n` bits. -/
theorem extractLsb'_eq_of_masked {x y : U64} {n : Nat} (h : (x ^^^ y) &&& BitVec.ofNat 64 (2 ^ n - 1) = 0#64) :
    x.extractLsb' 0 n = y.extractLsb' 0 n := by
  refine BitVec.eq_of_getLsbD_eq fun i hi => ?_
  rw [BitVec.getLsbD_extractLsb', BitVec.getLsbD_extractLsb', Nat.zero_add]
  by_cases h64 : i < 64
  · have hbit : ((x ^^^ y) &&& BitVec.ofNat 64 (2 ^ n - 1)).getLsbD i = false := by rw [h, BitVec.getLsbD_zero]
    have hxy : x.getLsbD i = y.getLsbD i := by
      simpa only [BitVec.getLsbD_and, BitVec.getLsbD_xor, BitVec.getLsbD_ofNat, Nat.testBit_two_pow_sub_one, hi, h64,
        decide_true, Bool.and_true, bne_eq_false_iff_eq] using hbit
    rw [hxy]
  · simp only [BitVec.getLsbD_of_ge _ i (Nat.le_of_not_lt h64)]

theorem eq_of_masked {x y : U64} (h : (x ^^^ y) &&& 0xFFFFFFFFFFFFFFFF#64 = 0#64) : x = y := by
  simpa using extractLsb'_eq_of_masked (n := 64) h

/-! ### Answers that differ on the operand ports alone -/

/-- The first answer is a next state, the second the same with `kin` and `din` on its ports. -/
def SameButPorts (kin din : U64) (a b : Answer) : Prop :=
  ∃ u : State, a = .next u ∧ b = .next { u with kin := kin, din := din }

theorem sameButPorts_of_halted {s : State} (hs : s.flt ≠ 0#4) (i : Instr) (kin din : U64) :
    SameButPorts kin din (exec i s) (exec i { s with kin := kin, din := din }) :=
  ⟨_, exec_of_halted hs i, exec_of_halted (s := { s with kin := kin, din := din }) hs i⟩

section
variable {s : State} (hs : s.flt = 0#4) {kin din : U64}
include hs

theorem sameButPorts_permuteCommand {W S : Nat} {T : PermTable W S} (hT : tableInRange T = true) (mode : Mode)
    {x y : BitVec S} (hxy : x = y) :
    SameButPorts kin din (permuteCommand T mode x s) (permuteCommand T mode y { s with kin := kin, din := din }) := by
  subst hxy
  exact ⟨_, permuteCommand_of_live hT mode x hs, permuteCommand_of_live hT mode x hs⟩

/-- BPERM on table id 7, which names no table (R59). -/
theorem execBperm_seven_of_live (mode : Mode) : execBperm 7#3 mode s = .next (s.takeFault .illegalCommand) :=
  whenLive_of_live hs fun s => .next (s.takeFault .illegalCommand)

theorem execBperm_sameButPorts (tsel : BitVec 3) (mode : Mode)
    (hdin : (s.din ^^^ din) &&& dinUsed (.bperm tsel mode) = 0#64) :
    SameButPorts kin din (execBperm tsel mode s) (execBperm tsel mode { s with kin := kin, din := din }) := by
  rcases tsel_cases tsel with rfl | rfl | rfl | rfl | rfl | rfl | rfl | rfl
  · exact sameButPorts_permuteCommand hs tableInRange_tIP mode (eq_of_masked hdin)
  · exact sameButPorts_permuteCommand hs tableInRange_tFP mode (eq_of_masked hdin)
  · exact sameButPorts_permuteCommand hs tableInRange_tE mode (extractLsb'_eq_of_masked hdin)
  · exact sameButPorts_permuteCommand hs tableInRange_tP mode (extractLsb'_eq_of_masked hdin)
  · exact sameButPorts_permuteCommand hs tableInRange_tPINV mode (extractLsb'_eq_of_masked hdin)
  · exact sameButPorts_permuteCommand hs tableInRange_tPC1 mode (eq_of_masked hdin)
  · exact sameButPorts_permuteCommand hs tableInRange_tPC2 mode (extractLsb'_eq_of_masked hdin)
  · have hs' : { s with kin := kin, din := din }.flt = 0#4 := hs
    exact ⟨_, execBperm_seven_of_live hs mode, execBperm_seven_of_live hs' mode⟩

/-- What a live command answers depends on no operand bit that its row does not name. -/
theorem exec_sameButPorts_of_live {i : Instr} (hkin : (s.kin ^^^ kin) &&& kinUsed i = 0#64)
    (hdin : (s.din ^^^ din) &&& dinUsed i = 0#64) :
    SameButPorts kin din (exec i s) (exec i { s with kin := kin, din := din }) := by
  have hs' : { s with kin := kin, din := din }.flt = 0#4 := hs
  cases i with
  | ip => exact sameButPorts_permuteCommand hs tableInRange_tIP _ (eq_of_masked hdin)
  | fp => exact sameButPorts_permuteCommand hs tableInRange_tFP _ (eq_of_masked hdin)
  | pbox => exact sameButPorts_permuteCommand hs tableInRange_tP _ (extractLsb'_eq_of_masked (n := 32) hdin)
  | pboxinv => exact sameButPorts_permuteCommand hs tableInRange_tPINV _ (extractLsb'_eq_of_masked (n := 32) hdin)
  | expand => exact sameButPorts_permuteCommand hs tableInRange_tE _ (extractLsb'_eq_of_masked (n := 32) hdin)
  | pc1 => exact sameButPorts_permuteCommand hs tableInRange_tPC1 _ (eq_of_masked hdin)
  | pc2 => exact sameButPorts_permuteCommand hs tableInRange_tPC2 _ (extractLsb'_eq_of_masked (n := 56) hdin)
  | bperm tsel mode => exact execBperm_sameButPorts hs tsel mode hdin
  | genkeys =>
    obtain rfl := eq_of_masked hkin
    exact ⟨_, execGenkeys_of_live hs, execGenkeys_of_live hs'⟩
  | rdkey idx =>
    rcases Option.eq_none_or_eq_some s.rk with hk | ⟨ks, hk⟩
    · exact ⟨_, execRdkey_of_none hs hk idx, execRdkey_of_none hs' hk idx⟩
    · exact ⟨_, execRdkey_of_some hs hk idx, execRdkey_of_some hs' hk idx⟩
  | feistel =>
    obtain rfl := eq_of_masked hdin
    refine ⟨_, execFeistel_of_live hs, ?_⟩
    rw [State.kin48, extractLsb'_eq_of_masked (n := 48) hkin]
    exact execFeistel_of_live hs'
  | isoround =>
    obtain rfl := eq_of_masked hdin
    refine ⟨_, execIsoround_of_live hs, ?_⟩
    rw [State.kin48, extractLsb'_eq_of_masked (n := 48) hkin]
    exact execIsoround_of_live hs'
  | encrypt =>
    obtain rfl := eq_of_masked hkin
    obtain rfl := eq_of_masked hdin
    exact ⟨_, execEncrypt_of_live hs, execEncrypt_of_live hs'⟩

end

theorem exec_sameButPorts {i : Instr} {s : State} {kin din : U64} (hkin : (s.kin ^^^ kin) &&& kinUsed i = 0#64)
    (hdin : (s.din ^^^ din) &&& dinUsed i = 0#64) :
    SameButPorts kin din (exec i s) (exec i { s with kin := kin, din := din }) := by
  by_cases hs : s.flt = 0#4
  · exact exec_sameButPorts_of_live hs hkin hdin
  · exact sameButPorts_of_halted hs i kin din

/-- Settles O22: the two answers differ on the operand ports alone. -/
theorem unusedOperandBitsHaveNoEffect : Obligations.UnusedOperandBitsHaveNoEffect := by
  intro i s t kin din hkin hdin h
  obtain ⟨u, hu, hu'⟩ := exec_sameButPorts hkin hdin
  rw [h] at hu; cases hu
  exact hu'

end Sys2Proof.Machine
end

section
/-! PROOFS. The engine on any table (R50, R51): its answer and its fault (O29), which input bits it reads (O31), how its two
modes are related (O32), and the tables that hold each value once (O33). -/

namespace Sys2Proof.Machine
open Sys2Proof.Claim

/-! ### R50, the answer and the fault -/

/-- A command over a table in range answers the engine's result, zero-extended, and writes nothing else. -/
theorem permuteCommand_answers {W S : Nat} {T : PermTable W S} (hT : tableInRange T = true) (mode : Mode) (x : BitVec S)
    {s : State} (hs : Live s) : permuteCommand T mode x s = .next (answer s 0#4 ((bpe T mode x).setWidth 64)) :=
  permuteCommand_of_live hT mode x hs

theorem tableInRange_eq_false {W S : Nat} {T : PermTable W S} (h : ∃ t ∈ T.entries, S ≤ t) : tableInRange T = false := by
  obtain ⟨t, ht, hle⟩ := h
  refine Bool.eq_false_iff.2 fun hT => ?_
  obtain ⟨-, hlt⟩ := (tableInRange_iff T).1 hT
  exact Nat.not_lt.2 hle (hlt t ht)

theorem permuteCommand_of_outOfRange {W S : Nat} {T : PermTable W S} (h : ∃ t ∈ T.entries, S ≤ t) (mode : Mode)
    (x : BitVec S) {s : State} (hs : Live s) :
    permuteCommand T mode x s = .next (s.takeFault .tableIndexOutOfRange) := by
  rw [permuteCommand, whenLive_of_live hs, tableInRange_eq_false h, whenInRange_false]

/-- Settles O29: the two formulas entry by entry, the answer of a table in range, and the fault of one that is not. -/
theorem engineFollowsItsFormulas : Obligations.EngineFollowsItsFormulas := by
  refine ⟨fun W S T x hlen hlt => ?inRange, fun W S T mode x s hs h => permuteCommand_of_outOfRange h mode x hs⟩
  case inRange =>
    have hT : tableInRange T = true := (tableInRange_iff T).2 ⟨hlen, hlt⟩
    exact ⟨fun i hi => ⟨bpe_direct_getLsbD hT x hi, bpe_complement_getLsbD hT x hi⟩,
      fun mode s hs => permuteCommand_answers hT mode x hs⟩

/-! ### R51 (b), (d): linearity, and the bits that are read -/

theorem bpe_getLsbD_of_lt {W S : Nat} (T : PermTable W S) (mode : Mode) (x : BitVec S) {i : Nat} (hW : i < W)
    (hi : i < (sources T mode).length) : (bpe T mode x).getLsbD i = x.getLsbD (sources T mode)[i] := by
  rw [bpe_getLsbD, List.getD_eq_getElem _ _ (by simpa using hi)]
  simp [hW]

/-- An output bit that has no entry is 0. -/
theorem bpe_getLsbD_of_length_le {W S : Nat} (T : PermTable W S) (mode : Mode) (x : BitVec S) {i : Nat}
    (hi : (sources T mode).length ≤ i) : (bpe T mode x).getLsbD i = false := by
  rw [bpe_getLsbD, List.getD_eq_default _ _ (by simpa using hi), Bool.and_false]

/-- Linearity bit by bit: an output bit is either one input bit or 0. -/
theorem bpe_xor {W S : Nat} (T : PermTable W S) (mode : Mode) (a b : BitVec S) :
    bpe T mode (a ^^^ b) = bpe T mode a ^^^ bpe T mode b := by
  refine BitVec.eq_of_getLsbD_eq fun i hW => ?_
  rw [BitVec.getLsbD_xor]
  rcases Nat.lt_or_ge i (sources T mode).length with hi | hi
  · simp only [bpe_getLsbD_of_lt T mode _ hW hi, BitVec.getLsbD_xor]
  · simp only [bpe_getLsbD_of_length_le T mode _ hi, Bool.xor_false]

theorem bpe_zero {W S : Nat} (T : PermTable W S) (mode : Mode) : bpe T mode 0#S = 0#W := by
  have h := bpe_xor T mode 0#S 0#S
  rwa [BitVec.xor_self, BitVec.xor_self] at h

/-- The engine reads no bit but its sources. -/
theorem bpe_congr {W S : Nat} (T : PermTable W S) (mode : Mode) {a b : BitVec S}
    (h : ∀ j ∈ sources T mode, a.getLsbD j = b.getLsbD j) : bpe T mode a = bpe T mode b := by
  rw [bpe, bpe, List.map_congr_left h]

theorem mem_sources_complement {W S j : Nat} {T : PermTable W S} :
    j ∈ sources T .complement ↔ ∃ n ∈ T.entries, S - 1 - n = j := by
  rw [sources, List.mem_reverse, List.mem_map]

/-- In complement-indexed mode the sources are the bits `S-1-n` of the entries `n`. -/
theorem bpe_complement_congr {W S : Nat} (T : PermTable W S) {a b : BitVec S}
    (h : ∀ n ∈ T.entries, a.getLsbD (S - 1 - n) = b.getLsbD (S - 1 - n)) : bpe T .complement a = bpe T .complement b := by
  refine bpe_congr T .complement fun j hj => ?_
  obtain ⟨n, hn, rfl⟩ := mem_sources_complement.1 hj
  exact h n hn

/-- Settles O31: linearity bit by bit, and the sources of each mode. -/
theorem engineIsLinearAndIgnoresUnnamedBits : Obligations.EngineIsLinearAndIgnoresUnnamedBits :=
  ⟨fun _ _ => bpe_xor, fun _ _ => bpe_zero, fun _ _ T _ _ => bpe_congr T .direct,
    fun _ _ T _ _ => bpe_complement_congr T⟩

/-! ### R51 (e): the two modes -/

/-- The engine's result depends on its table and mode through the list of sources alone. -/
theorem bpe_eq_of_sources_eq {W S : Nat} {T T' : PermTable W S} {mode mode' : Mode}
    (h : sources T mode = sources T' mode') (x : BitVec S) : bpe T mode x = bpe T' mode' x := by
  rw [bpe, bpe, h]

/-- The list of sources of `T` in complement-indexed mode is the reversed table of R51 (e). -/
theorem sources_complement_eq_of_reversed {W S : Nat} {T T' : PermTable W S} (hT : T.entries.length = W)
    (hT' : T'.entries.length = W)
    (h : ∀ j, j < W → T'.entries.getD j 0 = S - 1 - T.entries.getD (W - 1 - j) 0) :
    sources T .complement = sources T' .direct := by
  refine List.ext_getElem (by simp [hT, hT']) fun j hj hj' => ?_
  have hjW : j < W := by simpa [hT] using hj
  have hrev := h j hjW
  rw [List.getD_eq_getElem _ _ (by omega), List.getD_eq_getElem _ _ (by omega)] at hrev
  simp [sources, hT, hrev]

theorem sources_tIP_modes : sources tIP .complement = sources tIP .direct := by decide
theorem sources_tFP_modes : sources tFP .complement = sources tFP .direct := by decide
theorem sources_tE_modes : sources tE .complement = sources tE .direct := by decide

theorem bpe_tP_modes_ne : bpe tP .complement 1#32 ≠ bpe tP .direct 1#32 := by decide +kernel
theorem bpe_tPINV_modes_ne : bpe tPINV .complement 1#32 ≠ bpe tPINV .direct 1#32 := by decide +kernel
theorem bpe_tPC1_modes_ne : bpe tPC1 .complement 1#64 ≠ bpe tPC1 .direct 1#64 := by decide +kernel
theorem bpe_tPC2_modes_ne : bpe tPC2 .complement 1#56 ≠ bpe tPC2 .direct 1#56 := by decide +kernel

/-- Settles O32: equal lists of sources give one result, and on the other four tables the modes part at the input 1. -/
theorem engineModesAreRelated : Obligations.EngineModesAreRelated :=
  ⟨fun _ _ _ _ x hT hT' h => bpe_eq_of_sources_eq (sources_complement_eq_of_reversed hT hT' h) x,
    bpe_eq_of_sources_eq sources_tIP_modes, bpe_eq_of_sources_eq sources_tFP_modes, bpe_eq_of_sources_eq sources_tE_modes,
    ⟨_, bpe_tP_modes_ne⟩, ⟨_, bpe_tPINV_modes_ne⟩, ⟨_, bpe_tPC1_modes_ne⟩, ⟨_, bpe_tPC2_modes_ne⟩⟩

/-! ### R51 (c): tables that hold each value once -/

section
variable {n : Nat} {T : PermTable n n} (h : T.entries.Perm (List.range n)) (mode : Mode)
include h

/-- Each input bit is the source of one output bit, in either mode. -/
theorem sources_perm_range : (sources T mode).Perm (List.range n) := by
  cases mode with
  | direct => exact h
  | complement =>
    have hrev : (List.range n).map (fun t => n - 1 - t) = (List.range n).reverse := by
      rw [List.range_eq_range', List.reverse_range', Nat.zero_add, List.range_eq_range']
    have hmap : (T.entries.map fun t => n - 1 - t).Perm (List.range n).reverse := hrev ▸ h.map _
    exact (List.reverse_perm _).trans (hmap.trans (List.reverse_perm _))

/-- The output's bits in order are the input's bits at the sources. -/
theorem map_getLsbD_bpe (x : BitVec n) :
    (List.range n).map (bpe T mode x).getLsbD = (sources T mode).map x.getLsbD := by
  have hlen : (sources T mode).length = n := by rw [(sources_perm_range h mode).length_eq, List.length_range]
  refine List.ext_getElem (by simp [hlen]) fun i hi _ => ?_
  have hin : i < n := by simpa using hi
  simp [bpe_getLsbD_of_lt T mode x hin (hlen.symm ▸ hin)]

theorem bpe_injective : Function.Injective (bpe T mode) := by
  intro x y hxy
  have hbits : (sources T mode).map x.getLsbD = (sources T mode).map y.getLsbD := by
    rw [← map_getLsbD_bpe h mode x, ← map_getLsbD_bpe h mode y, hxy]
  refine BitVec.eq_of_getLsbD_eq fun j hj => ?_
  exact List.map_inj_left.1 hbits j ((sources_perm_range h mode).mem_iff.2 (List.mem_range.2 hj))

theorem bitCount_bpe (x : BitVec n) : bitCount (bpe T mode x) = bitCount x := by
  calc bitCount (bpe T mode x)
      = ((List.range n).map (bpe T mode x).getLsbD).countP id := by
        rw [bitCount, ← List.countP_eq_length_filter, List.countP_map, Function.id_comp]
    _ = ((sources T mode).map x.getLsbD).countP id := by rw [map_getLsbD_bpe h mode x]
    _ = ((List.range n).map x.getLsbD).countP id := ((sources_perm_range h mode).map _).countP_eq id
    _ = bitCount x := by rw [bitCount, ← List.countP_eq_length_filter, List.countP_map, Function.id_comp]

end

/-- Settles O33: the sources are the input bits in another order; the four tables are each undone by another. -/
theorem permutationTablesAreBijections : Obligations.PermutationTablesAreBijections :=
  ⟨fun _ _ mode h => ⟨Finite.injective_iff_bijective.1 (bpe_injective h mode), bitCount_bpe h mode⟩,
    tFP_undoes_tIP.perm_range tableInRange_tIP, tIP_undoes_tFP.perm_range tableInRange_tFP,
    tPINV_undoes_tP.perm_range tableInRange_tP, tP_undoes_tPINV.perm_range tableInRange_tPINV⟩

end Sys2Proof.Machine
end

section
/-! PROOFS. The seven named permutation commands (R52 to R58): the `SEL` a word must carry (R46), the bits a live command
selects (R50), what inverse tables and slices give; from these O42 and O34 to O40. -/

namespace Sys2Proof.Machine
open Sys2Proof.Claim

/-! ### The words (R44, R46, R96) -/

/-- A word that the decoder refuses raises IllegalCommand on a live core. -/
theorem step_of_decode_error {s : State} {r : Request} {rest : List HostEvent} {e : DecodeError}
    (hi : s.incoming = .command r :: rest) (hs : Live s) (hd : decode r.cmd = .error e) :
    step s = .next ((State.presentOperands { s with incoming := rest } r).takeFault .illegalCommand) := by
  have hs' : (State.presentOperands { s with incoming := rest } r).flt = 0#4 := hs
  rw [step_command hi, runWord, whenLive_of_live hs', hd]

theorem decode_append_opOf {i : Instr} (hbperm : ∀ tsel mode, i ≠ .bperm tsel mode) (hrdkey : ∀ idx, i ≠ .rdkey idx)
    (sel : U4) : decode (sel ++ opOf i) = withoutSel sel i := by
  rw [decode, selField_append, opField_append]
  cases i with
  | bperm tsel mode => exact absurd rfl (hbperm tsel mode)
  | rdkey idx => exact absurd rfl (hrdkey idx)
  | _ => rfl

/-- Only BPERM and RDKEY use `SEL`. -/
theorem selMustBeZero_opOf (i : Instr) (hbperm : ∀ tsel mode, i ≠ .bperm tsel mode) (hrdkey : ∀ idx, i ≠ .rdkey idx) :
    SelMustBeZero (opOf i) := by
  intro sel hsel
  have hd : decode (sel ++ opOf i) = .error .nonzeroSel := by
    rw [decode_append_opOf hbperm hrdkey, withoutSel, if_neg hsel]
  exact ⟨hd, fun s kin din rest hi hs => step_of_decode_error hi hs hd⟩

/-! ### The bits selected (R50) -/

theorem entry_lt {W S : Nat} {T : PermTable W S} (hT : tableInRange T = true) {i : Nat} (hi : i < W) :
    T.entries.getD i 0 < S := by
  obtain ⟨hlen, hlt⟩ := (tableInRange_iff T).1 hT
  have hi' : i < T.entries.length := by omega
  rw [List.getD_eq_getElem _ _ hi']
  exact hlt _ (List.getElem_mem hi')

/-- `din`'s low `S` bits through a table in range, in direct mode. -/
theorem selects_bpe_direct {W S : Nat} {T : PermTable W S} (hT : tableInRange T = true) (hW : W ≤ 64) (x : U64) :
    Selects ((bpe T .direct (x.setWidth S)).setWidth 64) x W fun i => T.entries.getD i 0 := by
  intro i
  rw [BitVec.getLsbD_setWidth]
  by_cases hi : i < W
  · have hout : i < 64 := Nat.lt_of_lt_of_le hi hW
    rw [bpe_direct_getLsbD hT _ hi, BitVec.getLsbD_setWidth]
    simp only [hi, hout, entry_lt hT hi, decide_true, Bool.true_and]
  · simp [hi, BitVec.getLsbD_of_ge _ i (Nat.le_of_not_lt hi)]

/-- `din`'s low `S` bits through a table in range, in complement-indexed mode. -/
theorem selectsFromTop_bpe_complement {W S : Nat} {T : PermTable W S} (hT : tableInRange T = true) (hW : W ≤ 64)
    (x : U64) :
    SelectsFromTop ((bpe T .complement (x.setWidth S)).setWidth 64) x W fun i => S - 1 - T.entries.getD i 0 := by
  refine ⟨fun i hi => ?low, fun i hi => ?above⟩
  case low =>
    have hentry := entry_lt hT hi
    have hsrc : S - 1 - T.entries.getD i 0 < S := by omega
    have hout : W - 1 - i < 64 := by omega
    rw [BitVec.getLsbD_setWidth, bpe_complement_getLsbD hT _ hi, BitVec.getLsbD_setWidth]
    simp only [hsrc, hout, decide_true, Bool.true_and]
  case above => rw [BitVec.getLsbD_setWidth, BitVec.getLsbD_of_ge _ i hi, Bool.and_false]

/-- A live command in direct mode on the low bits of `din`: its answer, and which bits of `din` it shows. -/
theorem permuteCommand_direct_selects {W S : Nat} {T : PermTable W S} (hT : tableInRange T = true) (hW : W ≤ 64)
    {s : State} (hs : Live s) :
    permuteCommand T .direct (s.din.setWidth S) s =
      .next (answer s 0#4 ((bpe T .direct (s.din.setWidth S)).setWidth 64)) ∧
    Selects ((bpe T .direct (s.din.setWidth S)).setWidth 64) s.din W fun i => T.entries.getD i 0 :=
  ⟨permuteCommand_answers hT .direct _ hs, selects_bpe_direct hT hW s.din⟩

/-- A live command in complement-indexed mode on the low bits of `din`. -/
theorem permuteCommand_complement_selects {W S : Nat} {T : PermTable W S} (hT : tableInRange T = true) (hW : W ≤ 64)
    {s : State} (hs : Live s) :
    permuteCommand T .complement (s.din.setWidth S) s =
      .next (answer s 0#4 ((bpe T .complement (s.din.setWidth S)).setWidth 64)) ∧
    SelectsFromTop ((bpe T .complement (s.din.setWidth S)).setWidth 64) s.din W fun i => S - 1 - T.entries.getD i 0 :=
  ⟨permuteCommand_answers hT .complement _ hs, selectsFromTop_bpe_complement hT hW s.din⟩

/-- An input of ones gives an output of ones, since every output bit has an entry and every entry names an input bit. -/
theorem bpe_allOnes {W S : Nat} {T : PermTable W S} (hT : tableInRange T = true) (mode : Mode) :
    bpe T mode (BitVec.allOnes S) = BitVec.allOnes W := by
  obtain ⟨hlen, hlt⟩ := (tableInRange_iff T).1 hT
  have hsrc : ∀ j ∈ sources T mode, j < S := by
    intro j hj
    cases mode with
    | direct => exact hlt j hj
    | complement =>
      obtain ⟨n, hn, rfl⟩ := mem_sources_complement.1 hj
      have := hlt n hn
      omega
  refine BitVec.eq_of_getLsbD_eq fun i hi => ?_
  have hi' : i < (sources T mode).length := by simpa [hlen] using hi
  rw [bpe_getLsbD_of_lt T mode _ hi hi', BitVec.getLsbD_allOnes, BitVec.getLsbD_allOnes]
  simp [hi, hsrc _ (List.getElem_mem hi')]

/-! ### Tables that undo each other (R28, R60) -/

/-- If `T` undoes `U` on the index set, the engine over `U` undoes the engine over `T`. -/
theorem UndoesTable.bpe_bpe {n : Nat} {T U : PermTable n n} (h : UndoesTable T U) (hT : tableInRange T = true)
    (hU : tableInRange U = true) (v : BitVec n) : bpe U .direct (bpe T .direct v) = v := by
  refine BitVec.eq_of_getLsbD_eq fun i hi => ?_
  rw [bpe_direct_getLsbD hU _ hi, bpe_direct_getLsbD hT v (entry_lt hU hi), h i hi]

theorem finalPermutation_initialPermutation (v : U64) : finalPermutation (initialPermutation v) = v :=
  tIP_undoes_tFP.bpe_bpe tableInRange_tIP tableInRange_tFP v

theorem initialPermutation_finalPermutation (v : U64) : initialPermutation (finalPermutation v) = v :=
  tFP_undoes_tIP.bpe_bpe tableInRange_tFP tableInRange_tIP v

theorem permuteInverse32_permute32 (v : U32) : permuteInverse32 (permute32 v) = v :=
  tP_undoes_tPINV.bpe_bpe tableInRange_tP tableInRange_tPINV v

theorem permute32_permuteInverse32 (v : U32) : permute32 (permuteInverse32 v) = v :=
  tPINV_undoes_tP.bpe_bpe tableInRange_tPINV tableInRange_tP v

theorem initialPermutation_one : initialPermutation 0x0000000000000001#64 = 0x0000008000000000#64 := by decide +kernel

/-- Settles O42: each pair of tables undoes each other, and so the example runs back. -/
theorem permutationPairsAreInverse : Obligations.PermutationPairsAreInverse :=
  ⟨finalPermutation_initialPermutation, initialPermutation_finalPermutation, permuteInverse32_permute32,
    permute32_permuteInverse32, initialPermutation_one,
    initialPermutation_one ▸ finalPermutation_initialPermutation 0x0000000000000001#64⟩

/-! ### IP and FP -/

/-- The one input bit that is set reappears where the inverse table places it. -/
theorem UndoesTable.bpe_twoPow {n : Nat} {T U : PermTable n n} (hTU : UndoesTable T U) (hUT : UndoesTable U T)
    (hT : tableInRange T = true) (hU : tableInRange U = true) {j : Nat} (hj : j < n) :
    bpe T .direct (BitVec.twoPow n j) = BitVec.twoPow n (U.entries.getD j 0) := by
  refine BitVec.eq_of_getLsbD_eq fun i hi => ?_
  have hsrc : j = T.entries.getD i 0 ↔ U.entries.getD j 0 = i := by
    constructor
    · rintro rfl
      exact hUT i hi
    · rintro rfl
      exact (hTU j hj).symm
  rw [bpe_direct_getLsbD hT _ hi, BitVec.getLsbD_twoPow, BitVec.getLsbD_twoPow]
  simp only [hj, entry_lt hU hj, hsrc]

/-- Output byte `a` of IP takes one bit of each input byte, an odd one in the lower four bytes, an even one above (R52). -/
theorem tIP_bytes : ∀ a < 8, ∀ b < 8, tIP.entries.getD (8 * a + b) 0 / 8 = 7 - b ∧
    (tIP.entries.getD (8 * a + b) 0 % 2 = 0 ↔ 4 ≤ a) := by decide

/-- Settles O34: the bits selected, then the corner cases from the table, where FP says which bit a single set bit moves to. -/
theorem ipPermutesTheBlock : Obligations.IpPermutesTheBlock := by
  refine ⟨rfl, rfl, selMustBeZero_opOf .ip nofun nofun,
    fun s hs => permuteCommand_direct_selects tableInRange_tIP (Nat.le_refl 64) hs, bpe_zero tIP .direct,
    bpe_allOnes tableInRange_tIP .direct, fun n hn => ⟨tFP.entries.getD n 0, entry_lt tableInRange_tFP hn, ?oneBit⟩,
    tIP_bytes, ?examples⟩
  case oneBit => exact tIP_undoes_tFP.bpe_twoPow tFP_undoes_tIP tableInRange_tIP tableInRange_tFP hn
  case examples => decide +kernel

/-- Settles O35: the bits selected, and that T_IP undoes T_FP on the index set. -/
theorem fpPermutesTheBlock : Obligations.FpPermutesTheBlock := by
  refine ⟨rfl, rfl, selMustBeZero_opOf .fp nofun nofun,
    fun s hs => permuteCommand_direct_selects tableInRange_tFP (Nat.le_refl 64) hs, bpe_zero tFP .direct,
    bpe_allOnes tableInRange_tFP .direct, finalPermutation_initialPermutation, ?examples⟩
  case examples => decide +kernel

/-! ### PBOX, PBOXINV and EXPAND -/

/-- Settles O36: the bits selected, all of them among the low 32. -/
theorem pboxPermutesTheLowHalf : Obligations.PboxPermutesTheLowHalf := by
  refine ⟨rfl, rfl, selMustBeZero_opOf .pbox nofun nofun,
    fun s hs => permuteCommand_direct_selects tableInRange_tP (by decide) hs, fun i hi => entry_lt tableInRange_tP hi,
    bpe_zero tP .direct, bpe_allOnes tableInRange_tP .direct, ?examples⟩
  case examples => decide +kernel

/-- Settles O37: the bits selected, and that T_P undoes T_PINV on the index set. -/
theorem pboxinvPermutesTheLowHalf : Obligations.PboxinvPermutesTheLowHalf := by
  refine ⟨rfl, rfl, selMustBeZero_opOf .pboxinv nofun nofun,
    fun s hs => permuteCommand_direct_selects tableInRange_tPINV (by decide) hs, permuteInverse32_permute32,
    ?examples⟩
  case examples => decide +kernel

/-- Group `j` of T_E runs from input bit `4j-1` to `4j+4`, modulo 32 (R56). -/
theorem tE_groups : ∀ j < 8, ∀ m < 6, tE.entries.getD (6 * j + m) 0 = (4 * j + 31 + m) % 32 := by decide

theorem expansion_getLsbD_group (x : U32) (j m : Nat) (hj : j < 8) (hm : m < 6) :
    (expansion x).getLsbD (6 * j + m) = x.getLsbD ((4 * j + 31 + m) % 32) := by
  rw [expansion, bpe_direct_getLsbD tableInRange_tE x (by omega), tE_groups j hj m hm]

/-- Settles O38: the bits selected, and the groups of T_E in closed form. -/
theorem expandSelectsOverlappingGroups : Obligations.ExpandSelectsOverlappingGroups := by
  refine ⟨rfl, rfl, selMustBeZero_opOf .expand nofun nofun,
    fun s hs => permuteCommand_direct_selects tableInRange_tE (by decide) hs, expansion_getLsbD_group,
    bpe_zero tE .direct, bpe_allOnes tableInRange_tE .direct, ?examples⟩
  case examples => decide +kernel

/-! ### PC1 -/

/-- PC1 reads no parity bit (R57). -/
theorem tPC1_no_parity_bit : ∀ n ∈ tPC1.entries, (64 - 1 - n) % 8 ≠ 0 := by decide

theorem permutedChoice1_congr {k k' : U64} (h : SameEffectiveKey k k') : permutedChoice1 k = permutedChoice1 k' :=
  bpe_complement_congr tPC1 fun n hn => h _ (tPC1_no_parity_bit n hn)

/-- Settles O39: the bits selected, none of which is a parity bit. -/
theorem pc1SelectsTheKeyBits : Obligations.Pc1SelectsTheKeyBits := by
  refine ⟨rfl, rfl, selMustBeZero_opOf .pc1 nofun nofun,
    fun s hs => permuteCommand_complement_selects tableInRange_tPC1 (by decide) hs, fun k k' => permutedChoice1_congr,
    ?examples⟩
  case examples => decide +kernel

/-! ### PC2 -/

/-- The eight bits of `din[55:0]` that PC2 drops (R58). -/
theorem tPC2_dropped_bits : ∀ n ∈ tPC2.entries, 56 - 1 - n ∉ [47, 38, 34, 31, 21, 18, 13, 2] := by decide

theorem extractLsb'_eq_iff {w lo len : Nat} {x y : BitVec w} :
    x.extractLsb' lo len = y.extractLsb' lo len ↔ ∀ i < len, x.getLsbD (lo + i) = y.getLsbD (lo + i) := by
  rw [BitVec.eq_of_getLsbD_eq_iff]
  refine forall₂_congr fun i hi => ?_
  simp only [BitVec.getLsbD_extractLsb', hi, decide_true, Bool.true_and]

/-- A slice of PC2's output whose sources all lie in one half of its input depends on that half alone. -/
theorem permutedChoice2_slice_congr {x y : U56} {lo half : Nat} (hlo : lo + 24 ≤ 48)
    (hsrc : ∀ i < 24, half ≤ 55 - tPC2.entries.getD (47 - (lo + i)) 0 ∧
      55 - tPC2.entries.getD (47 - (lo + i)) 0 < half + 28)
    (h : x.extractLsb' half 28 = y.extractLsb' half 28) :
    (permutedChoice2 x).extractLsb' lo 24 = (permutedChoice2 y).extractLsb' lo 24 := by
  refine extractLsb'_eq_iff.2 fun i hi => ?_
  obtain ⟨hge, hlt⟩ := hsrc i hi
  have hout : lo + i = 48 - 1 - (47 - (lo + i)) := by omega
  have hbit := extractLsb'_eq_iff.1 h (55 - tPC2.entries.getD (47 - (lo + i)) 0 - half) (by omega)
  rw [Nat.add_sub_cancel' hge] at hbit
  have hin : 47 - (lo + i) < 48 := by omega
  rw [hout, permutedChoice2, permutedChoice2, bpe_complement_getLsbD tableInRange_tPC2 x hin,
    bpe_complement_getLsbD tableInRange_tPC2 y hin]
  exact hbit

/-- Settles O40: the bits selected, and in which half of the input the sources of each half of the output lie. -/
theorem pc2SelectsTheRoundKeyBits : Obligations.Pc2SelectsTheRoundKeyBits := by
  refine ⟨rfl, rfl, selMustBeZero_opOf .pc2 nofun nofun,
    fun s hs => permuteCommand_complement_selects tableInRange_tPC2 (by decide) hs,
    fun x y h => bpe_complement_congr tPC2 fun n hn => h _ (tPC2_dropped_bits n hn),
    fun x y => permutedChoice2_slice_congr (by decide) ?high, fun x y => permutedChoice2_slice_congr (by decide) ?low,
    ?examples⟩
  case high => decide
  case low => decide
  case examples => decide +kernel

end Sys2Proof.Machine
end

section
/-! PROOFS. BPERM (R59, R46): each table in each mode, table id 7, the forms that equal a named command; from these O41. -/

namespace Sys2Proof.Machine
open Sys2Proof.Claim

/-- The word of BPERM: the mode in bit 7, the table id above `OP` 0x7 (R44). -/
theorem encode_bperm (tsel : BitVec 3) (mode : Mode) : encode (.bperm tsel mode) =
    (match mode with | .direct => 0x00#8 | .complement => 0x80#8) ||| (tsel.setWidth 8 <<< 4) ||| 0x07#8 := by
  revert tsel; cases mode <;> decide

/-- `T` is the table of BPERM's id `tsel` (R59's list): it is in range, and the command is the engine over `T`, in the
mode chosen, on the low bits of `din`. -/
def IsBpermTable (tsel : BitVec 3) {W S : Nat} (T : PermTable W S) : Prop :=
  tableInRange T = true ∧ W ≤ 64 ∧ bpermTable tsel = (W, S, T.entries) ∧
    ∀ (mode : Mode) (s : State), exec (.bperm tsel mode) s = permuteCommand T mode (s.din.setWidth S) s

/-- Every table id but 7 names a table (R59, R46). -/
theorem exists_isBpermTable {tsel : BitVec 3} (hid : tsel ≠ 7#3) :
    ∃ (W S : Nat) (T : PermTable W S), IsBpermTable tsel T := by
  rcases tsel_cases tsel with rfl | rfl | rfl | rfl | rfl | rfl | rfl | rfl
  · exact ⟨64, 64, tIP, tableInRange_tIP, by decide, rfl, fun _ _ => rfl⟩
  · exact ⟨64, 64, tFP, tableInRange_tFP, by decide, rfl, fun _ _ => rfl⟩
  · exact ⟨48, 32, tE, tableInRange_tE, by decide, rfl, fun _ _ => rfl⟩
  · exact ⟨32, 32, tP, tableInRange_tP, by decide, rfl, fun _ _ => rfl⟩
  · exact ⟨32, 32, tPINV, tableInRange_tPINV, by decide, rfl, fun _ _ => rfl⟩
  · exact ⟨56, 64, tPC1, tableInRange_tPC1, by decide, rfl, fun _ _ => rfl⟩
  · exact ⟨48, 56, tPC2, tableInRange_tPC2, by decide, rfl, fun _ _ => rfl⟩
  · exact absurd rfl hid

theorem bperm_direct_selects {tsel : BitVec 3} {s : State} (hs : Live s) (hid : tsel ≠ 7#3) : ∃ v : U64,
    exec (.bperm tsel .direct) s = .next (answer s 0#4 v) ∧
    Selects v s.din (bpermTable tsel).1 fun i => (bpermTable tsel).2.2.getD i 0 := by
  obtain ⟨W, S, T, hT, hW, htable, hexec⟩ := exists_isBpermTable hid
  rw [hexec, htable]
  exact ⟨_, permuteCommand_direct_selects hT hW hs⟩

theorem bperm_complement_selects {tsel : BitVec 3} {s : State} (hs : Live s) (hid : tsel ≠ 7#3) : ∃ v : U64,
    exec (.bperm tsel .complement) s = .next (answer s 0#4 v) ∧
    SelectsFromTop v s.din (bpermTable tsel).1 fun i =>
      (bpermTable tsel).2.1 - 1 - (bpermTable tsel).2.2.getD i 0 := by
  obtain ⟨W, S, T, hT, hW, htable, hexec⟩ := exists_isBpermTable hid
  rw [hexec, htable]
  exact ⟨_, permuteCommand_complement_selects hT hW hs⟩

/-- Where the two modes of a table have the same sources, the two commands are one. -/
theorem permuteCommand_complement_eq_direct {W S : Nat} {T : PermTable W S}
    (h : sources T .complement = sources T .direct) (x : BitVec S) (s : State) :
    permuteCommand T .complement x s = permuteCommand T .direct x s := by
  rw [permuteCommand, permuteCommand, bpe_eq_of_sources_eq h]

/-- The three complement-indexed forms that equal a named command. -/
theorem bperm_complement_eq_named (s : State) : exec (.bperm 0#3 .complement) s = exec .ip s ∧
    exec (.bperm 1#3 .complement) s = exec .fp s ∧ exec (.bperm 2#3 .complement) s = exec .expand s :=
  ⟨permuteCommand_complement_eq_direct sources_tIP_modes _ s, permuteCommand_complement_eq_direct sources_tFP_modes _ s,
    permuteCommand_complement_eq_direct sources_tE_modes _ s⟩

/-- Settles O41: the table of each id through the engine's two formulas; the forms that differ from a named command differ
at the input 1. -/
theorem bpermAppliesTheChosenTable : Obligations.BpermAppliesTheChosenTable := by
  refine ⟨encode_bperm, fun _ _ => bperm_direct_selects, fun _ _ => bperm_complement_selects,
    fun mode s hs => execBperm_seven_of_live hs mode, ?pDirect, ?pComplement, ?pinvComplement, ?pc1Parity, ?pc1Key,
    ?pc2BitZero, ?ipBlock, rfl, bperm_complement_eq_named, ⟨_, bpe_tP_modes_ne⟩, ⟨_, bpe_tPINV_modes_ne⟩,
    ⟨_, bpe_tPC1_modes_ne.symm⟩, ⟨_, bpe_tPC2_modes_ne.symm⟩⟩
  all_goals decide +kernel

end Sys2Proof.Machine
end

section
/-! PROOFS. The key schedule as a selection of key bits (R66, R68): a half of round `r` is the initial half rotated by the
cumulative amount, and so each bit of a round key is one key bit; from these O44, O46 and O47. -/

namespace Sys2Proof.Machine
open Sys2Proof.Claim

/-! ### `rol28` and the cumulative rotation -/

/-- Bit `i` moves to bit `(i+n) mod 28`. -/
theorem rol28_getLsbD_moved (v : U28) {n i : Nat} (hn : n ≤ 28) (hi : i < 28) :
    (rol28 v n).getLsbD ((i + n) % 28) = v.getLsbD i := by
  rw [rol28_getLsbD v n _ hn]
  rcases Nat.lt_or_ge (i + n) 28 with h | h
  · have hge : ¬ i + n < n := by omega
    simp [Nat.mod_eq_of_lt h, h, hge]
  · have hmod : (i + n) % 28 = i + n - 28 := by omega
    have hlt : i + n - 28 < n := by omega
    have hsrc : 28 - n + (i + n - 28) = i := by omega
    rw [hmod, if_pos hlt, hsrc]
    simp [show i + n - 28 < 28 by omega]

/-- A half of the schedule after `r` rounds, from the initial half `h`. -/
def rotateRounds (h : U28) : Nat → U28
  | 0 => h
  | r + 1 => rol28 (rotateRounds h r) (rot.getD r 0)

theorem keyHalves_eq_rotateRounds (key : U64) (r : Nat) :
    keyHalves key r = (rotateRounds (keyHalves key 0).1 r, rotateRounds (keyHalves key 0).2 r) := by
  induction r with
  | zero => rfl
  | succ r ih => simp only [keyHalves, ih, rotateRounds]

/-- Any sequence that rotates by `ROT[r-1]` in round `r` is `rotateRounds` of its start. -/
theorem eq_rotateRounds_of_rounds {H : Nat → U28}
    (hH : ∀ r, 1 ≤ r → r ≤ 16 → H r = rol28 (H (r - 1)) (rot.getD (r - 1) 0)) :
    ∀ r, r ≤ 16 → H r = rotateRounds (H 0) r := by
  intro r
  induction r with
  | zero => exact fun _ => rfl
  | succ r ih =>
    intro hr
    rw [hH (r + 1) (by omega) hr, Nat.add_sub_cancel, ih (by omega), rotateRounds]

theorem rot_getD_le : ∀ r < 16, rot.getD r 0 ≤ 28 := by decide

theorem cumulativeRotation_le : ∀ r ≤ 16, cumulativeRotation.getD r 0 ≤ 28 := by decide

theorem cumulativeRotation_succ :
    ∀ r < 16, cumulativeRotation.getD (r + 1) 0 = cumulativeRotation.getD r 0 + rot.getD r 0 := by decide

/-- R68 (a): after `r` rounds bit `i` has moved by the cumulative amount. -/
theorem rotateRounds_getLsbD_moved (h : U28) {r i : Nat} (hr : r ≤ 16) (hi : i < 28) :
    (rotateRounds h r).getLsbD ((i + cumulativeRotation.getD r 0) % 28) = h.getLsbD i := by
  induction r with
  | zero => rw [show cumulativeRotation.getD 0 0 = 0 from rfl, Nat.add_zero, Nat.mod_eq_of_lt hi]; rfl
  | succ r ih =>
    have hstep : (i + cumulativeRotation.getD (r + 1) 0) % 28 =
        ((i + cumulativeRotation.getD r 0) % 28 + rot.getD r 0) % 28 := by
      rw [cumulativeRotation_succ r hr, Nat.mod_add_mod, Nat.add_assoc]
    rw [hstep, rotateRounds, rol28_getLsbD_moved _ (rot_getD_le r hr) (Nat.mod_lt _ (by decide)), ih (by omega)]

/-- The bit of the initial half that stands at bit `j` after a rotation by `c`. -/
def rotatedFrom (c j : Nat) : Nat := (j + (28 - c)) % 28

theorem rotatedFrom_lt (c j : Nat) : rotatedFrom c j < 28 := Nat.mod_lt _ (by decide)

theorem rotateRounds_getLsbD (h : U28) {r j : Nat} (hr : r ≤ 16) (hj : j < 28) :
    (rotateRounds h r).getLsbD j = h.getLsbD (rotatedFrom (cumulativeRotation.getD r 0) j) := by
  have hc := cumulativeRotation_le r hr
  have hback : (rotatedFrom (cumulativeRotation.getD r 0) j + cumulativeRotation.getD r 0) % 28 = j := by
    rw [rotatedFrom]; omega
  have hmoved := rotateRounds_getLsbD_moved h hr (rotatedFrom_lt (cumulativeRotation.getD r 0) j)
  rwa [hback] at hmoved

/-- The sum of ROT is 28, a full turn. -/
theorem rotateRounds_sixteen (h : U28) : rotateRounds h 16 = h := by
  refine BitVec.eq_of_getLsbD_eq fun j hj => ?_
  have hturn : rotatedFrom (cumulativeRotation.getD 16 0) j = j := Nat.mod_eq_of_lt hj
  rw [rotateRounds_getLsbD h (Nat.le_refl 16) hj, hturn]

/-! ### The round keys -/

theorem roundKey_eq (key : U64) (r : Nat) : roundKey key r =
    permutedChoice2 (rotateRounds (keyHalves key 0).1 r ++ rotateRounds (keyHalves key 0).2 r) := by
  rw [roundKey, keyHalves_eq_rotateRounds]

theorem keySchedule_get (key : U64) (i : Fin 16) : (keySchedule key).get i = roundKey key (i.val + 1) :=
  Vector.get_ofFn _ i

theorem RoundKeys.getD_eq_get (ks : RoundKeys) {i : Nat} (hi : i < 16) : ks.getD i 0#48 = ks.get ⟨i, hi⟩ := by
  simp [Vector.getD, Vector.get_eq_getElem, hi]

/-- Two schedules are equal when their sixteen round keys are. -/
theorem RoundKeys.ext_get {ks ks' : RoundKeys} (h : ∀ i : Fin 16, ks.get i = ks'.get i) : ks = ks' :=
  Vector.ext fun i hi => h ⟨i, hi⟩

/-- Settles O44: sequences that follow the rounds are the schedule's own halves. -/
theorem keyScheduleFollowsItsRounds : Obligations.KeyScheduleFollowsItsRounds := by
  refine ⟨fun v n i hn hi => rol28_getLsbD_moved v (by omega) hi, fun key C D hC hD hround r h1 h16 => ?rounds⟩
  case rounds =>
    have hCr := eq_rotateRounds_of_rounds (fun r h1 h16 => (hround r h1 h16).1) r h16
    have hDr := eq_rotateRounds_of_rounds (fun r h1 h16 => (hround r h1 h16).2) r h16
    have hr : r - 1 + 1 = r := by omega
    rw [RoundKeys.getD_eq_get _ (by omega : r - 1 < 16), keySchedule_get, hr, roundKey_eq, hCr, hDr, hC, hD]
    rfl

/-! ### R68 (c): the key bit of each round-key bit -/

/-- The bit of the two initial halves, left half high, that stands at bit `p` after both rotated by `c`. -/
def halvesRotatedFrom (c p : Nat) : Nat := if p < 28 then rotatedFrom c p else 28 + rotatedFrom c (p - 28)

theorem halvesRotatedFrom_lt (c p : Nat) : halvesRotatedFrom c p < 56 := by
  have hlow := rotatedFrom_lt c p
  have hhigh := rotatedFrom_lt c (p - 28)
  rw [halvesRotatedFrom]
  split <;> omega

theorem halvesRotatedFrom_inj {c p q : Nat} (hc : c ≤ 28) (hp : p < 56) (hq : q < 56)
    (h : halvesRotatedFrom c p = halvesRotatedFrom c q) : p = q := by
  simp only [halvesRotatedFrom, rotatedFrom] at h
  split at h <;> split at h <;> omega

/-- The bit of the key that stands at bit `p` of the two halves of round `r`: PC-1, then the rotations. -/
def halvesKeyBit (r p : Nat) : Nat :=
  (sources tPC1 .complement).getD (halvesRotatedFrom (cumulativeRotation.getD r 0) p) 0

/-- The key bit of each bit of round key `r`: PC-2 from the halves of round `r`. -/
def roundKeySources (r : Nat) : List Nat := (sources tPC2 .complement).map (halvesKeyBit r)

theorem sources_tPC1_nodup : (sources tPC1 .complement).Nodup := by decide
theorem sources_tPC2_nodup : (sources tPC2 .complement).Nodup := by decide
theorem sources_tPC1_effective : ∀ j ∈ sources tPC1 .complement, j < 64 ∧ j % 8 ≠ 0 := by decide
theorem sources_tPC2_lt : ∀ p ∈ sources tPC2 .complement, p < 56 := by decide

theorem roundKeySources_length (r : Nat) : (roundKeySources r).length = 48 := List.length_map _

theorem halvesRotatedFrom_lt_length (c p : Nat) : halvesRotatedFrom c p < (sources tPC1 .complement).length :=
  halvesRotatedFrom_lt c p

theorem halvesKeyBit_eq_getElem (r p : Nat) : halvesKeyBit r p =
    (sources tPC1 .complement)[halvesRotatedFrom (cumulativeRotation.getD r 0) p]'(halvesRotatedFrom_lt_length _ p) :=
  List.getD_eq_getElem _ _ _

theorem roundKeySources_effective {r : Nat} : ∀ j ∈ roundKeySources r, j < 64 ∧ j % 8 ≠ 0 := by
  refine List.forall_mem_map.2 fun p _ => ?_
  rw [halvesKeyBit_eq_getElem]
  exact sources_tPC1_effective _ (List.getElem_mem _)

/-- PC-1 names no key bit twice, the rotations move no two bits to one place, and PC-2 names no bit of the halves twice. -/
theorem roundKeySources_nodup {r : Nat} (hr : r ≤ 16) : (roundKeySources r).Nodup := by
  refine sources_tPC2_nodup.map_on fun p hp q hq h => ?_
  rw [halvesKeyBit_eq_getElem, halvesKeyBit_eq_getElem, sources_tPC1_nodup.getElem_inj_iff] at h
  exact halvesRotatedFrom_inj (cumulativeRotation_le r hr) (sources_tPC2_lt p hp) (sources_tPC2_lt q hq) h

/-- Output bit `i` of the engine over a table in range is the input bit at place `i` of its sources. -/
theorem bpe_getLsbD_eq_source {W S : Nat} {T : PermTable W S} (hT : tableInRange T = true) (mode : Mode) (x : BitVec S)
    {i : Nat} (hi : i < W) : (bpe T mode x).getLsbD i = x.getLsbD ((sources T mode).getD i 0) := by
  obtain ⟨hlen, -⟩ := (tableInRange_iff T).1 hT
  have hi' : i < (sources T mode).length := by rw [sources_length, hlen]; exact hi
  rw [bpe_getLsbD_of_lt T mode x hi hi', List.getD_eq_getElem _ _ hi']

theorem permutedChoice1_getLsbD (key : U64) {p : Nat} (hp : p < 56) :
    (permutedChoice1 key).getLsbD p = key.getLsbD ((sources tPC1 .complement).getD p 0) :=
  bpe_getLsbD_eq_source tableInRange_tPC1 .complement key hp

theorem permutedChoice2_getLsbD (x : U56) {b : Nat} (hb : b < 48) :
    (permutedChoice2 x).getLsbD b = x.getLsbD ((sources tPC2 .complement).getD b 0) :=
  bpe_getLsbD_eq_source tableInRange_tPC2 .complement x hb

theorem halves_getLsbD (key : U64) {r p : Nat} (hr : r ≤ 16) (hp : p < 56) :
    (rotateRounds (keyHalves key 0).1 r ++ rotateRounds (keyHalves key 0).2 r).getLsbD p =
      key.getLsbD (halvesKeyBit r p) := by
  rw [halvesKeyBit, ← permutedChoice1_getLsbD key (halvesRotatedFrom_lt _ p), BitVec.getLsbD_append, halvesRotatedFrom]
  split
  case isTrue hlow =>
    rw [rotateRounds_getLsbD _ hr hlow, keyHalves, low28, BitVec.getLsbD_extractLsb']
    simp [rotatedFrom_lt]
  case isFalse =>
    rw [rotateRounds_getLsbD _ hr (by omega), keyHalves, high28, BitVec.getLsbD_extractLsb']
    simp [rotatedFrom_lt]

theorem roundKeySources_getD (r : Nat) {b : Nat} (hb : b < 48) : (roundKeySources r).getD b 0 =
    halvesKeyBit r ((sources tPC2 .complement).getD b 0) := by
  have hb' : b < (sources tPC2 .complement).length := hb
  have hb'' : b < (roundKeySources r).length := hb
  rw [List.getD_eq_getElem _ _ hb', List.getD_eq_getElem _ _ hb'']
  exact List.getElem_map _

theorem sources_tPC2_getD_lt : ∀ b < 48, (sources tPC2 .complement).getD b 0 < 56 := by decide

theorem roundKey_getLsbD (key : U64) {r b : Nat} (hr : r ≤ 16) (hb : b < 48) :
    (roundKey key r).getLsbD b = key.getLsbD ((roundKeySources r).getD b 0) := by
  rw [roundKey_eq, permutedChoice2_getLsbD _ hb, halves_getLsbD key hr (sources_tPC2_getD_lt b hb),
    roundKeySources_getD r hb]

/-- Settles O47: the sources of PC-2, taken back through the rotations and PC-1. -/
theorem roundKeyUsesFortyEightKeyBits : Obligations.RoundKeyUsesFortyEightKeyBits := fun i =>
  ⟨roundKeySources (i.val + 1), roundKeySources_length _, roundKeySources_nodup i.isLt, roundKeySources_effective,
    fun key b hb => by rw [keySchedule_get, roundKey_getLsbD key i.isLt hb]⟩

theorem roundKeySources_getD_effective (r : Nat) {b : Nat} (hb : b < 48) :
    (roundKeySources r).getD b 0 < 64 ∧ (roundKeySources r).getD b 0 % 8 ≠ 0 := by
  have hb' : b < (roundKeySources r).length := hb
  rw [List.getD_eq_getElem _ _ hb']
  exact roundKeySources_effective _ (List.getElem_mem hb')

/-! ### R68 (b) and (d) -/

/-- Each round key bit is a key bit, so the complement goes through. -/
theorem roundKey_not (key : U64) {r : Nat} (hr : r ≤ 16) : roundKey (~~~key) r = ~~~(roundKey key r) := by
  refine BitVec.eq_of_getLsbD_eq fun b hb => ?_
  obtain ⟨hlt, -⟩ := roundKeySources_getD_effective r hb
  rw [roundKey_getLsbD _ hr hb, BitVec.getLsbD_not, BitVec.getLsbD_not, roundKey_getLsbD _ hr hb]
  simp only [hlt, hb, decide_true, Bool.true_and]

theorem keySchedule_not_get (key : U64) (i : Fin 16) :
    (keySchedule (~~~key)).get i = ~~~((keySchedule key).get i) := by
  rw [keySchedule_get, keySchedule_get, roundKey_not key i.isLt]

theorem keySchedule_get_high {k k' : U64} (i : Fin 16) (h : (keyHalves k 0).1 = (keyHalves k' 0).1) :
    ((keySchedule k).get i).extractLsb' 24 24 = ((keySchedule k').get i).extractLsb' 24 24 := by
  rw [keySchedule_get, keySchedule_get, roundKey_eq, roundKey_eq]
  refine permutedChoice2_slice_congr (half := 28) (by decide) (by decide) ?_
  rw [BitVec.extractLsb'_append_eq_left, BitVec.extractLsb'_append_eq_left, h]

theorem keySchedule_get_low {k k' : U64} (i : Fin 16) (h : (keyHalves k 0).2 = (keyHalves k' 0).2) :
    ((keySchedule k).get i).extractLsb' 0 24 = ((keySchedule k').get i).extractLsb' 0 24 := by
  rw [keySchedule_get, keySchedule_get, roundKey_eq, roundKey_eq]
  refine permutedChoice2_slice_congr (half := 0) (by decide) (by decide) ?_
  rw [BitVec.extractLsb'_append_eq_right, BitVec.extractLsb'_append_eq_right, h]

/-- Settles O46: the rotations add up, PC-2 keeps the halves apart, and every round-key bit is a key bit. -/
theorem keyScheduleRotationsReturnAndComplement : Obligations.KeyScheduleRotationsReturnAndComplement := by
  refine ⟨fun key r i hr hi => ?moved, fun key => ⟨?halves, ?last⟩, fun k k' i => keySchedule_get_high i,
    fun k k' i => keySchedule_get_low i, keySchedule_not_get⟩
  case moved =>
    rw [keyHalves_eq_rotateRounds key r]
    exact ⟨rotateRounds_getLsbD_moved _ hr hi, rotateRounds_getLsbD_moved _ hr hi⟩
  case halves => rw [keyHalves_eq_rotateRounds key 16, rotateRounds_sixteen, rotateRounds_sixteen]
  case last =>
    rw [RoundKeys.getD_eq_get _ (by decide), keySchedule_get, roundKey_eq, rotateRounds_sixteen, rotateRounds_sixteen]

end Sys2Proof.Machine
end

section
/-! PROOFS. GENKEYS and RDKEY (R67, R70, R97): their answers on a live core, the corner cases of the schedule, and RDKEY
after the commands that write the file (R69, R117, R118); from these O45, O48 and O49. -/

namespace Sys2Proof.Machine
open Sys2Proof.Claim

/-! ### GENKEYS -/

theorem exec_genkeys_answers {s : State} (hs : Live s) :
    exec .genkeys s = .next (answer { s with rk := some (keySchedule s.kin) } 0#4 0#64) :=
  execGenkeys_of_live hs

theorem exec_encrypt_answers {s : State} (hs : Live s) :
    exec .encrypt s = .next (answer { s with rk := some (keySchedule s.kin) } 0#4 (encryptBlock s.kin s.din)) := by
  rw [← BitVec.setWidth_eq (encryptBlock s.kin s.din)]
  exact execEncrypt_of_live hs

/-- No round-key bit comes from a parity bit. -/
theorem keySchedule_congr {k k' : U64} (h : ∀ j < 64, j % 8 ≠ 0 → k.getLsbD j = k'.getLsbD j) :
    keySchedule k = keySchedule k' := by
  refine RoundKeys.ext_get fun i => ?_
  rw [keySchedule_get, keySchedule_get]
  refine BitVec.eq_of_getLsbD_eq fun b hb => ?_
  obtain ⟨hlt, heff⟩ := roundKeySources_getD_effective (i.val + 1) hb
  rw [roundKey_getLsbD k i.isLt hb, roundKey_getLsbD k' i.isLt hb, h _ hlt heff]

theorem keySchedule_zero : keySchedule 0#64 = Vector.replicate 16 0#48 := by
  refine RoundKeys.ext_get fun i => ?_
  rw [keySchedule_get, Vector.get_replicate]
  refine BitVec.eq_of_getLsbD_eq fun b hb => ?_
  rw [roundKey_getLsbD _ i.isLt hb, BitVec.getLsbD_zero, BitVec.getLsbD_zero]

/-- The key of ones is the complement of the key 0. -/
theorem keySchedule_ones : keySchedule 0xFFFFFFFFFFFFFFFF#64 = Vector.replicate 16 0xFFFFFFFFFFFF#48 := by
  refine RoundKeys.ext_get fun i => ?_
  rw [show 0xFFFFFFFFFFFFFFFF#64 = ~~~0#64 from rfl, keySchedule_not_get, keySchedule_zero, Vector.get_replicate,
    Vector.get_replicate]
  rfl

theorem keySchedule_parity_bits_alone :
    keySchedule 0x0101010101010101#64 = keySchedule 0#64 := keySchedule_congr (by decide)

theorem keySchedule_effective_bits_alone :
    keySchedule 0xFEFEFEFEFEFEFEFE#64 = keySchedule 0xFFFFFFFFFFFFFFFF#64 := keySchedule_congr (by decide)

/-- Settles O45: the live answer, then the weak keys through the effective bits and the complement. -/
theorem genkeysWritesTheSchedule : Obligations.GenkeysWritesTheSchedule := by
  refine ⟨rfl, rfl, selMustBeZero_opOf .genkeys nofun nofun, fun s hs => ⟨exec_genkeys_answers hs, State.rkv_of_some rfl⟩,
    keySchedule_zero, keySchedule_parity_bits_alone.trans keySchedule_zero, keySchedule_ones,
    keySchedule_effective_bits_alone.trans keySchedule_ones, fun k k' h => keySchedule_congr fun j _ => h j,
    ?firstKey, ?lastKey⟩
  case firstKey => decide +kernel
  case lastKey => decide +kernel

/-! ### RDKEY -/

theorem decode_rdkey (idx : U4) : decode (idx ++ 0x9#4) = .ok (.rdkey idx) := decode_encode (i := .rdkey idx) rfl

theorem exec_rdkey_of_written {s : State} {ks : RoundKeys} (hs : Live s) (hk : s.rk = some ks) (idx : U4) :
    exec (.rdkey idx) s = .next (answer s 0#4 ((ks.get idx.toFin).setWidth 64)) :=
  execRdkey_of_some hs hk idx

theorem exec_rdkey_of_unwritten {s : State} (hs : Live s) (hk : s.rk = none) (idx : U4) :
    exec (.rdkey idx) s = .next (answer { s with flt := 2#4 } 2#4 0#64) :=
  execRdkey_of_none hs hk idx

/-- Settles O48: the two answers by whether the file is written, which it is after ENCRYPT. -/
theorem rdkeyReadsTheFileOrRaisesInvalid : Obligations.RdkeyReadsTheFileOrRaisesInvalid := by
  refine ⟨fun idx => ⟨rfl, decode_rdkey idx⟩, fun idx s ks hs hk => ?written,
    fun idx s hs hv => exec_rdkey_of_unwritten hs ((State.rkv_eq_zero_iff s).1 hv) idx, fun idx s t hs ht => ?encrypt,
    ?firstKey, ?lastKey⟩
  case written =>
    rw [RoundKeys.getD_eq_get ks idx.isLt]
    exact exec_rdkey_of_written hs hk idx
  case encrypt =>
    have he := exec_cases ht
    rw [RoundKeys.getD_eq_get _ idx.isLt]
    exact exec_rdkey_of_written ((he.flt_of_writes (.inr rfl)).trans hs) (he.rk_of_writes hs (.inr rfl)) idx
  case firstKey => decide +kernel
  case lastKey => decide +kernel

/-! ### R69, R117, R118: the most recent schedule -/

/-- From `s` the command presented next completes with `dout`, and the core is live with `ks` in the file and `rest` to come. -/
def StepCompletes (s : State) (rest : List HostEvent) (ks : RoundKeys) (dout : U64) (t : State) : Prop :=
  step s = .next t ∧ Live t ∧ t.incoming = rest ∧ t.rk = some ks ∧ t.responses = s.responses ++ [⟨0#4, dout⟩]

section
variable {s : State} (hs : Live s) {rest : List HostEvent}
include hs

theorem stepCompletes_genkeys {k x : U64} (hi : s.incoming = .command ⟨0x08#8, k, x⟩ :: rest) :
    ∃ t, StepCompletes s rest (keySchedule k) 0#64 t := by
  have hd : decode 0x08#8 = .ok .genkeys := rfl
  have hstep := stepRunsDecodedCommand.1 s _ rest .genkeys hi hd
  have hexec := exec_genkeys_answers (s := taken s ⟨0x08#8, k, x⟩ rest) hs
  exact ⟨_, hstep.trans hexec, hs, rfl, rfl, rfl⟩

theorem stepCompletes_encrypt {k b : U64} (hi : s.incoming = .command ⟨0x0C#8, k, b⟩ :: rest) :
    ∃ t, StepCompletes s rest (keySchedule k) (encryptBlock k b) t := by
  have hd : decode 0x0C#8 = .ok .encrypt := rfl
  have hstep := stepRunsDecodedCommand.1 s _ rest .encrypt hi hd
  have hexec := exec_encrypt_answers (s := taken s ⟨0x0C#8, k, b⟩ rest) hs
  exact ⟨_, hstep.trans hexec, hs, rfl, rfl, rfl⟩

theorem stepCompletes_rdkey {idx : U4} {y z : U64} {ks : RoundKeys}
    (hi : s.incoming = .command ⟨idx ++ 0x9#4, y, z⟩ :: rest) (hk : s.rk = some ks) :
    ∃ t, StepCompletes s rest ks ((ks.get idx.toFin).setWidth 64) t := by
  have hstep := stepRunsDecodedCommand.1 s _ rest (.rdkey idx) hi (decode_rdkey idx)
  have hexec := exec_rdkey_of_written (s := taken s ⟨idx ++ 0x9#4, y, z⟩ rest) hs hk idx
  exact ⟨_, hstep.trans hexec, hs, rfl, hk, rfl⟩

end

/-- Settles O49: each sequence taken one completed command at a time, from a live core whose file may hold anything. -/
theorem rdkeyAnswersTheMostRecentSchedule : Obligations.RdkeyAnswersTheMostRecentSchedule := by
  refine fun s k k2 x y z b idx hs => ⟨fun hi => ?read, fun hi => ?again, fun hi => ?encrypted⟩
  all_goals obtain ⟨t, ht, hlive, hinc, hk, hresp⟩ := stepCompletes_genkeys hs hi
  case read =>
    obtain ⟨u, hu, -, -, -, hresp'⟩ := stepCompletes_rdkey hlive hinc hk
    refine ⟨u, (run_succ_of_step ht 1).trans (run_succ_of_step hu 0), ?_⟩
    rw [hresp', hresp, List.append_assoc, List.singleton_append]
  case again =>
    obtain ⟨u, hu, hlive', -, hk', -⟩ := stepCompletes_genkeys hlive hinc
    exact ⟨t, u, ht, hu, hk'.trans hk.symm, Eq.trans hlive' hlive.symm⟩
  case encrypted =>
    obtain ⟨u, hu, hlive', hinc', hk', hresp'⟩ := stepCompletes_encrypt hlive hinc
    obtain ⟨v, hv, -, -, hk'', hresp''⟩ := stepCompletes_rdkey hlive' hinc' hk'
    refine ⟨v, (run_succ_of_step ht 2).trans ((run_succ_of_step hu 1).trans (run_succ_of_step hv 0)), hk'', ?_⟩
    rw [hresp'', hresp', hresp, List.append_assoc, List.append_assoc, List.singleton_append, List.singleton_append]

end Sys2Proof.Machine
end

section
/-! PROOFS. The Feistel round (R75 to R80): the nibbles of the substitution, FEISTEL's live answer, and which operand bits
each part of the round reads; from these O50, O51 and O52. -/

namespace Sys2Proof.Machine
open Sys2Proof.Claim

/-! ### Groups and nibbles (R76 to R78) -/

/-- The group's value is a shift and a mask of the mixed value (R76). -/
theorem group_toNat (x : U48) (i : Nat) : (group x i).toNat = ((x >>> (6 * i)) &&& 0x3F#48).toNat := by
  rw [group, BitVec.extractLsb'_toNat, BitVec.toNat_and, BitVec.toNat_ushiftRight]
  exact (Nat.and_two_pow_sub_one_eq_mod _ 6).symm

/-- Nibble `i` is the entry of SBox `7-i` at the group's value (R77). -/
theorem nibble_toNat (x : U48) (i : Nat) : (nibble x i).toNat =
    (sboxes.getD (7 - i) []).getD ((x >>> (6 * i)) &&& 0x3F#48).toNat 0 := by
  have hbox : 7 - i < 8 := by omega
  rw [nibble, sbox_toNat ⟨7 - i, hbox⟩, group_toNat]

/-- The `n+1` topmost nibbles of the substituted value, `nibble x 7` first. -/
def upperNibbles (x : U48) : (n : Nat) → BitVec (4 * (n + 1))
  | 0 => nibble x 7
  | n + 1 => upperNibbles x n ++ nibble x (6 - n)

theorem substitute_eq_upperNibbles (x : U48) : substitute x = upperNibbles x 7 := rfl

theorem upperNibbles_extractLsb' (x : U48) {n i : Nat} (hn : n ≤ 7) (hi : i ≤ n) :
    (upperNibbles x n).extractLsb' (4 * i) 4 = nibble x (7 - n + i) := by
  induction n generalizing i with
  | zero =>
    obtain rfl : i = 0 := by omega
    exact BitVec.extractLsb'_eq_self
  | succ n ih =>
    cases i with
    | zero =>
      have hlast : 7 - (n + 1) + 0 = 6 - n := by omega
      rw [hlast]
      exact BitVec.extractLsb'_append_eq_right
    | succ i =>
      have hshift : 7 - (n + 1) + (i + 1) = 7 - n + i := by omega
      rw [hshift, ← ih (by omega) (by omega)]
      exact BitVec.extractLsb'_append_eq_of_le (by omega)

/-- Nibble `i` stands at bits [4i+3:4i] of the substituted value (R78). -/
theorem substitute_extractLsb' (x : U48) {i : Nat} (hi : i < 8) :
    (substitute x).extractLsb' (4 * i) 4 = nibble x i := by
  have hplace := upperNibbles_extractLsb' x (Nat.le_refl 7) (Nat.le_of_lt_succ hi)
  rwa [Nat.sub_self, Nat.zero_add] at hplace

theorem substitute_getLsbD (x : U48) {j : Nat} (hj : j < 32) :
    (substitute x).getLsbD j = (nibble x (j / 4)).getLsbD (j % 4) := by
  have hi : j / 4 < 8 := by omega
  have hm : j % 4 < 4 := Nat.mod_lt _ (by decide)
  rw [← substitute_extractLsb' x hi, BitVec.getLsbD_extractLsb', Nat.div_add_mod]
  simp [hm]

/-- A nibble reads no bit outside its own group. -/
theorem nibble_congr {x y : U48} {i : Nat} (h : ∀ b, b / 6 = i → x.getLsbD b = y.getLsbD b) :
    nibble x i = nibble y i := by
  have hgroup : group x i = group y i := extractLsb'_eq_iff.2 fun m hm => h _ (by omega)
  rw [nibble, nibble, hgroup]

/-! ### FEISTEL (R75) -/

theorem exec_feistel_answers {s : State} (hs : Live s) : exec .feistel s = .next (answer s 0#4
    ((feistelF (s.kin.setWidth 48) (s.din.setWidth 32) ((s.din >>> 32).setWidth 32)).setWidth 64)) :=
  execFeistel_of_live hs

/-- Settles O50: the live answer, and nibble by nibble the substitution of the mixed value. -/
theorem feistelFollowsItsSteps : Obligations.FeistelFollowsItsSteps := by
  refine ⟨rfl, rfl, selMustBeZero_opOf .feistel nofun nofun, fun s hs => exec_feistel_answers hs,
    fun k r linv => ⟨substitute (expansion r ^^^ k), rfl, fun i hi => ?nibbles⟩, ?workedRound⟩
  case nibbles => rw [substitute_extractLsb' _ hi, nibble_toNat]
  case workedRound => decide +kernel

/-! ### `LInverse` (R79, R80 (c)) -/

theorem permute32_xor (a b : U32) : permute32 (a ^^^ b) = permute32 a ^^^ permute32 b := bpe_xor tP .direct a b

theorem feistelF_zero (k : U48) (r : U32) : feistelF k r 0#32 = permute32 (substitute (expansion r ^^^ k)) := by
  rw [feistelF, BitVec.xor_zero]

/-- F is affine in `LInverse`. -/
theorem feistelF_xor (k : U48) (r a b : U32) : feistelF k r (a ^^^ b) = feistelF k r a ^^^ permute32 b := by
  rw [feistelF, ← BitVec.xor_assoc, permute32_xor, feistelF]

theorem feistelF_permuteInverse32 (k : U48) (r l : U32) :
    feistelF k r (permuteInverse32 l) = permute32 (substitute (expansion r ^^^ k)) ^^^ l := by
  rw [feistelF, permute32_xor, permute32_permuteInverse32]

/-- Settles O51: PBOX is linear and undoes PBOXINV. -/
theorem feistelAbsorbsTheLeftHalf : Obligations.FeistelAbsorbsTheLeftHalf := fun k r l =>
  ⟨feistelF_permuteInverse32 k r l, feistelF_zero k r⟩

/-! ### The mixed value (R80 (a), (b)) -/

/-- F reads `R` and the key through the mixed value alone. -/
theorem feistelF_congr {k k' : U48} {r r' : U32} (h : expansion r ^^^ k = expansion r' ^^^ k') (l : U32) :
    feistelF k r l = feistelF k' r' l := by rw [feistelF, feistelF, h]

theorem expansion_zero : expansion 0#32 = 0#48 := bpe_zero tE .direct

theorem expansion_ones : expansion 0xFFFFFFFF#32 = 0xFFFFFFFFFFFF#48 := bpe_allOnes tableInRange_tE .direct

theorem substitute_ones : substitute 0xFFFFFFFFFFFF#48 = 0xd9ce3dcb#32 := by decide +kernel

theorem feistelF_keyOnes (l : U32) : feistelF 0xFFFFFFFFFFFF#48 0#32 l = permute32 (0xd9ce3dcb#32 ^^^ l) := by
  rw [feistelF, expansion_zero, BitVec.zero_xor, substitute_ones]

/-- Ones on `R` mix to the same value as ones on the key, since Expansion maps ones to ones. -/
theorem feistelF_dataOnes (l : U32) :
    feistelF 0#48 0xFFFFFFFF#32 l = feistelF 0xFFFFFFFFFFFF#48 0#32 l := by
  refine feistelF_congr ?_ l
  rw [expansion_ones, expansion_zero, BitVec.xor_comm]

/-- Ones on both cancel. -/
theorem feistelF_bothOnes (l : U32) :
    feistelF 0xFFFFFFFFFFFF#48 0xFFFFFFFF#32 l = feistelF 0#48 0#32 l := by
  refine feistelF_congr ?_ l
  rw [expansion_ones, expansion_zero, BitVec.xor_self, BitVec.xor_self]

/-! ### One group, one nibble (R80 (d)) -/

/-- Output bit `j` of F comes from bit `T_P[j]` of the substituted value, and so from one nibble. -/
theorem feistelF_getLsbD (k : U48) (r l : U32) {j : Nat} (hj : j < 32) : (feistelF k r l).getLsbD j =
    ((nibble (expansion r ^^^ k) (tP.entries.getD j 0 / 4)).getLsbD (tP.entries.getD j 0 % 4) ^^
      l.getLsbD (tP.entries.getD j 0)) := by
  rw [feistelF, permute32, bpe_direct_getLsbD tableInRange_tP _ hj, BitVec.getLsbD_xor,
    substitute_getLsbD _ (entry_lt tableInRange_tP hj)]

/-- Keys that agree outside group `i` give the same nibbles but nibble `i`. -/
theorem nibble_mix_congr {k k' : U48} {i m : Nat} (hk : ∀ b, b / 6 ≠ i → k.getLsbD b = k'.getLsbD b) (hm : m ≠ i)
    (e : U48) : nibble (e ^^^ k) m = nibble (e ^^^ k') m := by
  refine nibble_congr fun b hb => ?_
  rw [BitVec.getLsbD_xor, BitVec.getLsbD_xor, hk b (hb ▸ hm)]

/-- Settles O52: what F reads of each operand, and the examples by evaluation. -/
theorem feistelLaws : Obligations.FeistelLaws := by
  refine ⟨?zeros, fun k k' r r' l h => feistelF_congr h l,
    fun l => ⟨feistelF_keyOnes l, (feistelF_dataOnes l).trans (feistelF_keyOnes l), feistelF_bothOnes l⟩,
    feistelF_xor, ?complemented, rfl, fun k k' r l i hi hk => ⟨fun m _ hm => nibble_mix_congr hk hm _, ?outputBits⟩,
    ?examples⟩
  case zeros => decide +kernel
  case complemented => decide +kernel
  case outputBits =>
    intro j hj hnibble
    rw [feistelF_getLsbD k r l hj, feistelF_getLsbD k' r l hj, nibble_mix_congr hk hnibble]
  case examples => decide +kernel

end Sys2Proof.Machine
end

section
/-! PROOFS. The cipher (R85 to R91): one round on the two halves of the state, how the state goes from round to round, and
what that gives for the whole of ENCRYPT; from these O53 to O58. -/

namespace Sys2Proof.Machine
open Sys2Proof.Claim

/-! ### The two halves of a 64-bit value (R32) -/

@[simp] theorem high32_append (l r : U32) : high32 (l ++ r) = l := BitVec.extractLsb'_append_eq_left

@[simp] theorem low32_append (l r : U32) : low32 (l ++ r) = r := BitVec.extractLsb'_append_eq_right

theorem high32_append_low32 (v : U64) : high32 v ++ low32 v = v :=
  BitVec.extractLsb'_append_extractLsb' (w := 32) (len := 32)

theorem append32_eq_iff (l r : U32) (v : U64) : l ++ r = v ↔ l = high32 v ∧ r = low32 v := by
  constructor
  · rintro rfl
    exact ⟨(high32_append l r).symm, (low32_append l r).symm⟩
  · rintro ⟨rfl, rfl⟩
    exact high32_append_low32 v

theorem append32_inj {l r l' r' : U32} : l ++ r = l' ++ r' ↔ l = l' ∧ r = r' := by
  rw [append32_eq_iff, high32_append, low32_append]

theorem high32_eq_setWidth (v : U64) : high32 v = (v >>> 32).setWidth 32 := rfl

theorem low32_eq_setWidth (v : U64) : low32 v = v.setWidth 32 := rfl

theorem not_halves (v : U64) : ~~~(high32 v) = high32 (~~~v) ∧ ~~~(low32 v) = low32 (~~~v) :=
  (append32_eq_iff _ _ _).1 (by rw [← BitVec.not_append, high32_append_low32])

/-! ### One round (R79, R85 step 3) -/

/-- A round XORs the left half with a value that depends on the key and the right half alone. -/
theorem roundNewR_eq_xor (k : U48) (st : U64) :
    roundNewR k st = permute32 (substitute (expansion (low32 st) ^^^ k)) ^^^ high32 st :=
  feistelF_permuteInverse32 k (low32 st) (high32 st)

/-- The right half and the round's output give the state back. -/
theorem eq_of_roundNewR_eq {k : U48} {st st' : U64} (hlow : low32 st = low32 st')
    (hnew : roundNewR k st = roundNewR k st') : st = st' := by
  rw [roundNewR_eq_xor, roundNewR_eq_xor, hlow, BitVec.xor_right_inj] at hnew
  rw [← high32_append_low32 st, ← high32_append_low32 st', hlow, hnew]

theorem bpe_not {W S : Nat} {T : PermTable W S} (hT : tableInRange T = true) (mode : Mode) (x : BitVec S) :
    bpe T mode (~~~x) = ~~~(bpe T mode x) := by
  rw [← BitVec.xor_allOnes, bpe_xor, bpe_allOnes hT, BitVec.xor_allOnes]

/-- Complements of key and data cancel in the mixed value, and the left half carries its own through the XOR. -/
theorem roundNewR_not (k : U48) (st : U64) : roundNewR (~~~k) (~~~st) = ~~~(roundNewR k st) := by
  obtain ⟨hhigh, hlow⟩ := not_halves st
  have hmix : expansion (~~~(low32 st)) ^^^ ~~~k = expansion (low32 st) ^^^ k := by
    rw [expansion, bpe_not tableInRange_tE, ← BitVec.not_xor_left, ← BitVec.not_xor_right, BitVec.not_not, expansion]
  rw [roundNewR_eq_xor, roundNewR_eq_xor, ← hhigh, ← hlow, hmix, BitVec.not_xor_right]

/-! ### From round to round (R85 step 3) -/

/-- Every round but the last swaps. -/
theorem cipherState_succ (ks : RoundKeys) (st0 : U64) {r : Nat} (hr : r ≠ 15) :
    cipherState ks st0 (r + 1) =
      low32 (cipherState ks st0 r) ++ roundNewR (ks.getD r 0#48) (cipherState ks st0 r) :=
  if_neg fun h => hr (Nat.succ.inj h)

/-- The last round does not swap. -/
theorem cipherState_sixteen (ks : RoundKeys) (st0 : U64) :
    cipherState ks st0 16 =
      roundNewR (ks.getD 15 0#48) (cipherState ks st0 15) ++ low32 (cipherState ks st0 15) := rfl

/-! ### ISOROUND (R88, R89) -/

theorem exec_isoround_answers {s : State} (hs : Live s) : exec .isoround s = .next (answer s 0#4
    ((feistelF (s.kin.setWidth 48) ((initialPermutation s.din).setWidth 32)
      (permuteInverse32 ((initialPermutation s.din >>> 32).setWidth 32))).setWidth 64)) := by
  rw [← high32_eq_setWidth, ← low32_eq_setWidth]
  exact execIsoround_of_live hs

/-- ISOROUND under the first round key computes the right half that round 1 leaves. -/
theorem isolatedRound_eq_low32 (ks : RoundKeys) (block : U64) :
    isolatedRound (ks.get 0) block = low32 (cipherState ks (initialPermutation block) 1) := by
  rw [cipherState_succ ks _ (by decide), low32_append, RoundKeys.getD_eq_get ks (by decide)]
  rfl

/-- The spec's worked first round. -/
theorem cipherState_workedRound : cipherState (keySchedule 0x3032343234363236#64)
    (initialPermutation 0x1122334455667788#64) 1 = 0x80668066c59690f3#64 := by decide +kernel

/-- Settles O53: the live answer; ENCRYPT's first round leaves the same value in its right half; the examples. -/
theorem isoroundIsRoundOne : Obligations.IsoroundIsRoundOne := by
  refine ⟨rfl, rfl, selMustBeZero_opOf .isoround nofun nofun, fun s hs => exec_isoround_answers hs,
    fun k b => isolatedRound_eq_low32 (keySchedule k) b, cipherState_workedRound, ?examples⟩
  case examples => decide +kernel

/-! ### ENCRYPT (R85, R90) -/

/-- The spec's known answer (R90). -/
theorem encryptBlock_knownAnswer :
    encryptBlock 0x3032343234363236#64 0x1122334455667788#64 = 0xc403d32e2bc6cfee#64 := by decide +kernel

/-- Settles O54: the sequence of states is the cipher state under the schedule just written. -/
theorem encryptFollowsItsSteps : Obligations.EncryptFollowsItsSteps := by
  refine ⟨rfl, rfl, selMustBeZero_opOf .encrypt nofun nofun, fun s hs =>
    ⟨cipherState (keySchedule s.kin) (initialPermutation s.din), _, rfl, exec_encrypt_answers hs, State.rkv_of_some rfl,
      rfl, fun round h1 h16 => ?rounds⟩, encryptBlock_knownAnswer⟩
  case rounds =>
    obtain ⟨r, rfl⟩ := Nat.exists_eq_add_of_le' h1
    refine ⟨fun h15 => cipherState_succ _ _ (by omega), fun hlast => ?_⟩
    obtain rfl : r = 15 := by omega
    exact cipherState_sixteen _ _

/-! ### The standard's network (R87) -/

/-- The halves of the standard's network are those of the cipher state, as long as the rounds swap. -/
theorem cipherState_eq_network {ks : RoundKeys} {st0 : U64} {L R : Nat → U32} (h0 : L 0 ++ R 0 = st0)
    (hround : ∀ r, 1 ≤ r → r ≤ 16 → L r = R (r - 1) ∧
      R r = L (r - 1) ^^^ permute32 (substitute (expansion (R (r - 1)) ^^^ ks.getD (r - 1) 0#48)))
    {r : Nat} (hr : r ≤ 15) : cipherState ks st0 r = L r ++ R r := by
  induction r with
  | zero => exact h0.symm
  | succ r ih =>
    obtain ⟨hL, hR⟩ := hround (r + 1) (by omega) (by omega)
    rw [cipherState_succ ks st0 (by omega), ih (by omega), roundNewR_eq_xor, high32_append, low32_append, hL, hR,
      Nat.add_sub_cancel, BitVec.xor_comm]

/-- Settles O55: a round's output is the XOR of the standard's, and the last round leaves the halves unswapped. -/
theorem encryptIsTheStandardFeistelNetwork : Obligations.EncryptIsTheStandardFeistelNetwork := by
  intro key block L R h0 hround
  have hstate : ∀ r, r ≤ 15 → cipherState (keySchedule key) (initialPermutation block) r = L r ++ R r :=
    fun r => cipherState_eq_network h0 hround
  have hnew : ∀ r, 1 ≤ r → r ≤ 16 →
      R r = feistelF ((keySchedule key).getD (r - 1) 0#48) (R (r - 1)) (permuteInverse32 (L (r - 1))) := by
    intro r h1 h16
    rw [feistelF_permuteInverse32, (hround r h1 h16).2, BitVec.xor_comm]
  refine ⟨hstate, hnew, ?result⟩
  case result =>
    have hL : L 16 = R 15 := (hround 16 (by decide) (by decide)).1
    rw [encryptBlock, encryptWith, cipherState_sixteen, hstate 15 (by decide), roundNewR, high32_append, low32_append,
      ← hnew 16 (by decide) (by decide), hL]

/-! ### R91 (a): the parity bits -/

/-- Settles O56: the round keys come from the effective key bits alone; the example's key has the known answer's. -/
theorem encryptIgnoresParityBits : Obligations.EncryptIgnoresParityBits := by
  refine ⟨fun k k' b h => ?same, ?knownKey⟩
  case same => rw [encryptBlock, encryptBlock, keySchedule_congr fun j _ => h j]
  case knownKey =>
    have hkeys : keySchedule 0x3133353335373337#64 = keySchedule 0x3032343234363236#64 := keySchedule_congr (by decide)
    rw [encryptBlock, hkeys]
    exact encryptBlock_knownAnswer

/-! ### R91 (b): one key, a bijection on blocks -/

theorem initialPermutation_injective : Function.Injective initialPermutation :=
  Function.LeftInverse.injective finalPermutation_initialPermutation

theorem finalPermutation_injective : Function.Injective finalPermutation :=
  Function.LeftInverse.injective initialPermutation_finalPermutation

/-- Each round can be undone, whatever its key. -/
theorem cipherState_injective (ks : RoundKeys) (r : Nat) : Function.Injective fun st0 => cipherState ks st0 r := by
  intro st st' h
  induction r with
  | zero => exact h
  | succ r ih =>
    obtain ⟨hlow, hnew⟩ : low32 (cipherState ks st r) = low32 (cipherState ks st' r) ∧
        roundNewR (ks.getD r 0#48) (cipherState ks st r) = roundNewR (ks.getD r 0#48) (cipherState ks st' r) := by
      by_cases hlast : r = 15
      · subst hlast
        simp only [Nat.reduceAdd, cipherState_sixteen] at h
        exact (append32_inj.1 h).symm
      · simp only [cipherState_succ ks _ hlast] at h
        exact append32_inj.1 h
    exact ih (eq_of_roundNewR_eq hlow hnew)

theorem encryptBlock_injective (key : U64) : Function.Injective (encryptBlock key) :=
  finalPermutation_injective.comp ((cipherState_injective (keySchedule key) 16).comp initialPermutation_injective)

/-- Settles O57: each step of ENCRYPT is injective, and an injective function on the finite set of blocks is a bijection. -/
theorem encryptIsABijectionOnBlocks : Obligations.EncryptIsABijectionOnBlocks := fun key =>
  Finite.injective_iff_bijective.1 (encryptBlock_injective key)

/-! ### R91 (c): complementation -/

/-- Complemented round keys take the complement of a state to the complement, round by round. -/
theorem cipherState_not {ks ks' : RoundKeys} (hks : ∀ i, ks'.get i = ~~~(ks.get i)) (st0 : U64) {r : Nat} (hr : r ≤ 16) :
    cipherState ks' (~~~st0) r = ~~~(cipherState ks st0 r) := by
  induction r with
  | zero => rfl
  | succ r ih =>
    have hkey : ks'.getD r 0#48 = ~~~(ks.getD r 0#48) := by
      rw [RoundKeys.getD_eq_get ks' hr, RoundKeys.getD_eq_get ks hr, hks]
    obtain ⟨-, hlow⟩ := not_halves (cipherState ks st0 r)
    have hnew := roundNewR_not (ks.getD r 0#48) (cipherState ks st0 r)
    by_cases hlast : r = 15
    · subst hlast
      rw [cipherState_sixteen, cipherState_sixteen, ih (by omega), hkey, hnew, ← hlow, BitVec.not_append]
    · rw [cipherState_succ _ _ hlast, cipherState_succ _ _ hlast, ih (by omega), hkey, hnew, ← hlow, BitVec.not_append]

theorem encryptBlock_not (key block : U64) : encryptBlock (~~~key) (~~~block) = ~~~(encryptBlock key block) := by
  have hip : initialPermutation (~~~block) = ~~~(initialPermutation block) := bpe_not tableInRange_tIP .direct block
  rw [encryptBlock, encryptWith, hip, cipherState_not (keySchedule_not_get key) _ (Nat.le_refl 16)]
  exact bpe_not tableInRange_tFP .direct _

theorem encryptBlock_zero : encryptBlock 0#64 0#64 = 0x8ca64de9c1b123a7#64 := by decide +kernel

/-- Settles O58: the complement goes through the key schedule and every round; the second example is the first's. -/
theorem encryptComplementation : Obligations.EncryptComplementation := by
  refine ⟨encryptBlock_not, encryptBlock_zero, ?ones⟩
  case ones =>
    have hnot := encryptBlock_not 0#64 0#64
    rw [encryptBlock_zero] at hnot
    exact hnot

end Sys2Proof.Machine
end

section
/-! PROOFS. Which words the decoder refuses, and on which of R96's three grounds; from these O5. -/

namespace Sys2Proof.Machine
open Sys2Proof.Claim

/-- The ground on which R96 (a), (b), (c) refuse a word. -/
def RefusalGround (w : U8) : DecodeError → Prop
  | .reservedOp => opField w = 0xD#4 ∨ opField w = 0xE#4 ∨ opField w = 0xF#4
  | .reservedTable => opField w = 0x7#4 ∧ tselField (selField w) = 7#3
  | .nonzeroSel => opField w ≠ 0x7#4 ∧ opField w ≠ 0x9#4 ∧ selField w ≠ 0#4

theorem withoutSel_eq_error_iff (sel : U4) (i : Instr) (e : DecodeError) :
    withoutSel sel i = .error e ↔ sel ≠ 0#4 ∧ e = .nonzeroSel := by
  by_cases h : sel = 0#4 <;> simp [withoutSel, h, eq_comm]

/-- An `OP` past the last row of the opcode map is one of the three reserved ones (R45). -/
theorem reservedOp_of_ge {op : U4} (h : 0xD ≤ op.toNat) : op = 0xD#4 ∨ op = 0xE#4 ∨ op = 0xF#4 := by
  revert op; decide

/-- A command that demands `SEL = 0` refuses a word for its `SEL` alone (R46 (b)). -/
theorem refusalGround_of_withoutSel {w : U8} {i : Instr} {e : DecodeError} {n : Nat} (hop : (opField w).toNat = n)
    (hbperm : n ≠ 7) (hrdkey : n ≠ 9) (h : withoutSel (selField w) i = .error e) : RefusalGround w e := by
  obtain ⟨hsel, rfl⟩ := (withoutSel_eq_error_iff _ _ _).1 h
  refine ⟨fun h7 => hbperm ?_, fun h9 => hrdkey ?_, hsel⟩
  · rw [← hop, h7]; rfl
  · rw [← hop, h9]; rfl

/-- Each branch of the decoder that refuses has its ground. -/
theorem refusalGround_of_decode_error {w : U8} {e : DecodeError} (h : decode w = .error e) : RefusalGround w e := by
  simp only [decode] at h
  split at h
  case h_8 hop =>
    split at h
    case isTrue hid => cases h; exact ⟨BitVec.eq_of_toNat_eq hop, hid⟩
    case isFalse => cases h
  case h_10 => cases h
  case h_14 =>
    cases h
    exact reservedOp_of_ge (by simp only [imp_false] at *; omega)
  all_goals exact refusalGround_of_withoutSel (by assumption) (by decide) (by decide) h

/-- No ground refuses the word of a command. -/
theorem not_refusalGround_encode {i : Instr} (hw : WellFormed i = true) (e : DecodeError) :
    ¬ RefusalGround (encode i) e := by
  cases e with
  | reservedOp =>
    rw [RefusalGround, opField_encode]
    cases i <;> simp [opOf]
  | reservedTable =>
    rw [RefusalGround, opField_encode, selField_encode]
    cases i with
    | bperm tsel mode => simpa [opOf, selOf, WellFormed] using hw
    | _ => exact fun h => absurd h.1 (by simp [opOf])
  | nonzeroSel =>
    rw [RefusalGround, opField_encode, selField_encode]
    cases i with
    | bperm => exact fun h => h.1 rfl
    | rdkey => exact fun h => h.2.1 rfl
    | _ => exact fun h => h.2.2 rfl

theorem exists_decode_error_iff (w : U8) : (∃ e, decode w = .error e) ↔ ∃ e, RefusalGround w e := by
  refine ⟨fun ⟨e, h⟩ => ⟨e, refusalGround_of_decode_error h⟩, fun ⟨e, hg⟩ => ?_⟩
  cases hd : decode w with
  | error e' => exact ⟨e', rfl⟩
  | ok i =>
    obtain ⟨rfl, hw⟩ := encode_of_decode hd
    exact absurd hg (not_refusalGround_encode hw e)

theorem not_mem_legalWords_iff (w : U8) : w ∉ legalWords ↔ ∃ e, decode w = .error e := by
  obtain ⟨-, -, hlegal⟩ := legalWordsAreFortyOne
  rw [← hlegal w]
  cases decode w <;> simp

theorem tselField_selField (w : U8) : tselField (selField w) = w.extractLsb' 4 3 := by
  ext i hi
  simp [tselField, selField, show i < 4 by omega]

/-- Settles O5: a word that is not listed is refused by the decoder, and the decoder refuses on R96's three grounds. -/
theorem illegalWordTakesIllegalCommand : Obligations.IllegalWordTakesIllegalCommand := by
  refine ⟨fun s r rest hi hs hw => ?step, fun w => ?grounds⟩
  case step =>
    obtain ⟨e, hd⟩ := (not_mem_legalWords_iff r.cmd).1 hw
    exact step_of_decode_error hi hs hd
  case grounds =>
    rw [not_mem_legalWords_iff, exists_decode_error_iff, ← tselField_selField]
    constructor
    · rintro ⟨_ | _ | _, hg⟩
      · exact .inl hg
      · exact .inr (.inl hg)
      · exact .inr (.inr hg)
    · rintro (hg | hg | hg)
      · exact ⟨.reservedOp, hg⟩
      · exact ⟨.reservedTable, hg⟩
      · exact ⟨.nonzeroSel, hg⟩

end Sys2Proof.Machine
end

section
/-! PROOFS. Idle, halted and faulting steps (R98, R99, R102, R109): O7 and O11, the halted core for one command and for a
list of them (O8, O9), what a fault writes (O14), and that code 3 is never raised (O30). -/

namespace Sys2Proof.Machine
open Sys2Proof.Claim

/-- Settles O7: nothing is taken from an empty port. -/
theorem idleCoreHoldsItsState : Obligations.IdleCoreHoldsItsState := fun _ => step_idle

/-- Settles O11: idle, reset and each command have their next state. -/
theorem everyStepAnswersNext : Obligations.EveryStepAnswersNext := by
  refine ⟨fun s => ?step, fun i s => ?exec⟩
  case step =>
    rcases hi : s.incoming with _ | ⟨r | _, rest⟩
    · exact ⟨s, step_idle hi⟩
    · exact step_command_answers hi
    · exact ⟨_, step_reset hi⟩
  case exec =>
    obtain ⟨t, ht, -⟩ := exec_effect i s
    exact ⟨t, ht⟩

/-! ### The halted core (R99, R101) -/

theorem step_of_halted {s : State} {r : Request} {rest : List HostEvent} (hs : s.flt ≠ 0#4)
    (hi : s.incoming = .command r :: rest) : step s = .next (answer (taken s r rest) s.flt 0#64) :=
  (step_command hi).trans (whenLive_of_halted (s := taken s r rest) hs _)

/-- Settles O8: the halted answer comes before the decoder, and each command gives it too. -/
theorem haltedCoreAnswersStoredCode : Obligations.HaltedCoreAnswersStoredCode :=
  ⟨fun _ _ _ => step_of_halted, fun _ i hs => exec_of_halted hs i, fun _ hs hgood => hs hgood⟩

/-- Settles O9, by induction on the commands: the state after one halted answer is halted with the same code. -/
theorem haltedRunChangesNothing : Obligations.HaltedRunChangesNothing := by
  intro rs
  induction rs with
  | nil => exact fun s _ hi => ⟨s, rfl, rfl, rfl, hi, (List.append_nil _).symm⟩
  | cons r rs ih =>
    intro s hs hi
    obtain ⟨t, hrun, hrk, hflt, hinc, hresp⟩ := ih (answer (taken s r (rs.map .command)) s.flt 0#64) hs rfl
    refine ⟨t, (run_succ_of_step (step_of_halted hs hi) rs.length).trans hrun, hrk, hflt, hinc, hresp.trans ?_⟩
    exact List.append_assoc ..

/-! ### What a fault writes (R98) -/

/-- `t` is `s` with one of the two faults taken that a command can raise (R96, R97). -/
def TakesFault (s t : State) : Prop := t = s.takeFault .illegalCommand ∨ t = s.takeFault .roundKeyInvalid

theorem CommandEffect.takesFault {i : Instr} {s t : State} (he : CommandEffect i s t) (hs : s.flt = 0#4)
    (ht : t.flt ≠ 0#4) : TakesFault s t := by
  rcases he with ⟨h, -⟩ | ⟨-, -, v, rfl⟩ | ⟨-, -, v, rfl⟩ | ⟨-, -, h⟩ | ⟨-, -, -, h⟩
  case inl => exact absurd hs h
  case inr.inl => exact absurd hs ht
  case inr.inr.inl => exact absurd hs ht
  case inr.inr.inr.inl => exact .inl h
  case inr.inr.inr.inr => exact .inr h

theorem WordEffect.takesFault {cmd : U8} {s t : State} (he : WordEffect cmd s t) (hs : s.flt = 0#4)
    (ht : t.flt ≠ 0#4) : TakesFault s t := by
  rcases he with ⟨h, -⟩ | ⟨-, -, h⟩ | ⟨-, i, -, -, he⟩
  · exact absurd hs h
  · exact .inl h
  · exact he.takesFault hs ht

theorem wordEffect_of_step {s t : State} {r : Request} {rest : List HostEvent} (hi : s.incoming = .command r :: rest)
    (h : step s = .next t) : WordEffect r.cmd (taken s r rest) t := by
  obtain ⟨u, hu, he⟩ := runWord_effect r.cmd (taken s r rest)
  rw [(step_command hi).trans hu] at h; cases h
  exact he

/-- Settles O14: the only effects of a word that leave `FLT` nonzero on a live core are the two faults. -/
theorem faultWritesOnlyFlt : Obligations.FaultWritesOnlyFlt := by
  intro s t r rest hi hs h ht
  rcases (wordEffect_of_step hi h).takesFault hs ht with rfl | rfl
  · exact ⟨rfl, .inl rfl⟩
  · exact ⟨rfl, .inr rfl⟩

/-! ### Code 3 (R109) -/

theorem AnswersWithFlt.flt_ne_three {s t : State} (h : AnswersWithFlt s t) (hs : s.flt ≠ 3#4) : t.flt ≠ 3#4 := by
  obtain ⟨hflt | hflt | hflt, -⟩ := h <;> rw [hflt]
  · exact hs
  · decide
  · decide

/-- Settles O30: the engine's own check raises code 3, and no answer of a command or a word has it, the seven tables being
in range. -/
theorem tableFaultIsRaisedAndUnreachable : Obligations.TableFaultIsRaisedAndUnreachable := by
  refine ⟨fun W S T mode x s hs h => ⟨_, permuteCommand_of_outOfRange h mode x hs, rfl⟩,
    fun i s t hs h => (exec_cases h).answersWithFlt.flt_ne_three hs, fun s t hs h => ?step⟩
  case step =>
    rcases step_cases h with ⟨-, rfl⟩ | ⟨rest, -, rfl⟩ | ⟨r, rest, -, he⟩
    · exact hs
    · exact (by decide : 0#4 ≠ 3#4)
    · exact he.answersWithFlt.flt_ne_three hs

end Sys2Proof.Machine
end

section
/-! PROOFS. Several instances (R106): a step at a place modifies that place alone; from this O60. -/

namespace Sys2Proof.Machine

/-- The state after one step, which every state has (`step_eq_next`). -/
def nextState (s : State) : State :=
  match step s with
  | .next t => t
  | .fault _ => s
  | .refused _ => s

theorem nextState_of_step {s t : State} (h : step s = .next t) : nextState s = t := by rw [nextState, h]

theorem step_eq_next (s : State) : step s = .next (nextState s) := by
  obtain ⟨t, ht⟩ := everyStepAnswersNext.1 s
  rw [nextState_of_step ht, ht]

/-- A place outside the list has no state to modify. -/
theorem platformStep_eq (n : Nat) (p : List State) : platformStep n p = .next (p.modify n nextState) := by
  rw [platformStep, List.modify_eq_set_getElem?]
  cases p[n]? with
  | none => rfl
  | some s => simp only [step_eq_next]; rfl

theorem platformRun_pair (m n : Nat) (p : List State) :
    platformRun [m, n] p = .next ((p.modify m nextState).modify n nextState) := by
  simp only [platformRun, platformStep_eq]

/-- Settles O60: modifications at two places commute, and one leaves the other place. -/
theorem instancesAreIndependent : Obligations.InstancesAreIndependent := by
  refine ⟨fun n p s t hp h => ⟨p.modify n nextState, platformStep_eq n p, ?own, List.length_modify .., fun m hm => ?other⟩,
    fun m n p hmn => ?commute⟩
  case own => rw [List.getElem?_modify_eq, hp, Option.map_eq_map, Option.map_some, nextState_of_step h]
  case other => exact List.getElem?_modify_ne _ p hm.symm
  case commute => rw [platformRun_pair, platformRun_pair, List.modify_modify_ne _ _ p hmn]

end Sys2Proof.Machine
end

section
/-! PROOFS. Reset and hazards (R110, R113, R114): reset alone clears `RKV` and `FLT` (O13), the launch premises (O19), and
the run that ends good (O20). -/

namespace Sys2Proof.Machine
open Sys2Proof.Claim

/-! ### Reset (R110) -/

theorem step_keeps_rkv {s t : State} (hn : ∀ rest, s.incoming ≠ .reset :: rest) (h : step s = .next t)
    (hv : s.rkv = 1#1) : t.rkv = 1#1 := by
  rw [State.rkv_eq_one_iff] at hv ⊢
  rcases step_rk_cases h with ⟨-, ht⟩ | ⟨rest, hi, -⟩ | ⟨-, -, -, -, ht⟩ | ⟨r, -, -, -, ht⟩
  case inl => exact ht ▸ hv
  case inr.inl => exact absurd hi (hn rest)
  case inr.inr.inl => exact ht ▸ hv
  case inr.inr.inr => exact ⟨_, ht⟩

theorem step_keeps_flt_of_halted {s t : State} (hn : ∀ rest, s.incoming ≠ .reset :: rest) (h : step s = .next t)
    (hs : s.flt ≠ 0#4) : t.flt = s.flt := by
  rcases step_cases h with ⟨-, rfl⟩ | ⟨rest, hi, -⟩ | ⟨r, rest, hi, -⟩
  · rfl
  · exact absurd hi (hn rest)
  · rw [step_of_halted hs hi] at h; cases h
    rfl

/-- Settles O13: the reset step written out; of the other steps, none takes the file's values and none leaves the halted
core. -/
theorem resetAloneClearsRkvAndFlt : Obligations.ResetAloneClearsRkvAndFlt :=
  ⟨fun _ _ hi => ⟨step_reset hi, State.rkv_of_none rfl, rfl⟩,
    fun _ _ hn h => ⟨step_keeps_rkv hn h, step_keeps_flt_of_halted hn h⟩⟩

/-! ### The launch premises (R113) and the good run (R114) -/

/-- From `s` to `t` the responses `new` were given, and `t` is good exactly when `s` was and each of them has status 0. -/
def GoodIffStatusesOk (s t : State) (new : List Response) : Prop :=
  t.responses = s.responses ++ new ∧ (GoodState t ↔ GoodState s ∧ ∀ a ∈ new, a.status = 0#4)

theorem GoodIffStatusesOk.refl (s : State) : GoodIffStatusesOk s s [] := by simp [GoodIffStatusesOk]

theorem GoodIffStatusesOk.trans {s t u : State} {new new' : List Response} (h : GoodIffStatusesOk s t new)
    (h' : GoodIffStatusesOk t u new') : GoodIffStatusesOk s u (new ++ new') := by
  obtain ⟨hresp, hgood⟩ := h
  obtain ⟨hresp', hgood'⟩ := h'
  refine ⟨by rw [hresp', hresp, List.append_assoc], ?_⟩
  rw [hgood', hgood, List.forall_mem_append, and_assoc]

/-- One command: its response carries the new `FLT`, which is 0 only if the old one was. -/
theorem step_command_goodIffStatusesOk {s : State} {r : Request} {rest : List HostEvent}
    (hi : s.incoming = .command r :: rest) :
    ∃ (t : State) (a : Response), step s = .next t ∧ t.incoming = rest ∧ GoodIffStatusesOk s t [a] := by
  obtain ⟨t, a, ht, hresp, hinc, hstatus, -⟩ := oneResponsePerCommand s r rest hi
  refine ⟨t, a, ht, hinc, hresp, ?_⟩
  have hkeep : GoodState t → GoodState s := fun hgood => by
    by_contra hs
    have hflt := step_keeps_flt_of_halted (by simp [hi]) ht hs
    exact hs (hflt.symm.trans hgood)
  rw [List.forall_mem_singleton, hstatus]
  exact ⟨fun hgood => ⟨hkeep hgood, hgood⟩, And.right⟩

/-- Settles O19: a step keeps a file that is a schedule, and a command's one response tells whether the core stays good. -/
theorem commandsKeepLaunchPremises : Obligations.CommandsKeepLaunchPremises := by
  obtain ⟨-, -, -, hreset⟩ := resetMeetsInvariants
  refine ⟨hreset, fun s t r rest hi h => ⟨fun hs => step_keeps_keyFileIsSchedule hs h, fun hs a hresp hok => ?good⟩⟩
  case good =>
    obtain ⟨u, b, hu, -, hresp', hgood⟩ := step_command_goodIffStatusesOk hi
    rw [hu] at h; cases h
    obtain rfl : b = a := by simpa [hresp'] using hresp
    exact hgood.2 ⟨hs, List.forall_mem_singleton.2 hok⟩

/-- A run of any commands, from any state, gives one response each; their statuses and the start tell if it ends good. -/
theorem run_goodIffStatusesOk (rs : List Request) (s : State) (hi : s.incoming = rs.map HostEvent.command) :
    ∃ (t : State) (new : List Response), Host.Core.run Sys2Proof.core rs.length s = .next t ∧ t.incoming = [] ∧
      new.length = rs.length ∧ GoodIffStatusesOk s t new := by
  induction rs generalizing s with
  | nil => exact ⟨s, [], rfl, hi, rfl, .refl s⟩
  | cons r rs ih =>
    obtain ⟨t, a, ht, hinc, hstep⟩ := step_command_goodIffStatusesOk hi
    obtain ⟨u, new, hrun, hinc', hlen, hrest⟩ := ih t hinc
    exact ⟨u, a :: new, (run_succ_of_step ht rs.length).trans hrun, hinc', congrArg (· + 1) hlen, hstep.trans hrest⟩

/-- Settles O20: the run from any state, the start being good. -/
theorem goodRunIffEveryStatusOk : Obligations.GoodRunIffEveryStatusOk := by
  intro rs s hs hi
  obtain ⟨t, new, hrun, hinc, hlen, hresp, hgood⟩ := run_goodIffStatusesOk rs s hi
  exact ⟨t, new, hrun, hinc, hresp, hlen, hgood.trans (and_iff_right hs)⟩

end Sys2Proof.Machine
end

section
/-! PROOFS. Commands without preparation (R112): the whole answer of every command but RDKEY on a live core, whatever the
file held, and RDKEY before and after the file is written; from these O23. -/

namespace Sys2Proof.Machine
open Sys2Proof.Claim

section
variable {s : State} (hs : Live s)
include hs

/-- A 64-bit result fills `dout`. -/
theorem permuteCommand_answers_block {S : Nat} {T : PermTable 64 S} (hT : tableInRange T = true) (mode : Mode)
    (x : BitVec S) : permuteCommand T mode x s = .next (answer s 0#4 (bpe T mode x)) := by
  rw [permuteCommand_answers hT mode x hs, BitVec.setWidth_eq]

theorem exec_bperm_answers {tsel : BitVec 3} (hid : tsel ≠ 7#3) (mode : Mode) :
    exec (.bperm tsel mode) s = .next (answer s 0#4 (resultOf (.bperm tsel mode) s.kin s.din)) := by
  rcases tsel_cases tsel with rfl | rfl | rfl | rfl | rfl | rfl | rfl | rfl
  · exact permuteCommand_answers_block hs tableInRange_tIP mode _
  · exact permuteCommand_answers_block hs tableInRange_tFP mode _
  · exact permuteCommand_answers tableInRange_tE mode _ hs
  · exact permuteCommand_answers tableInRange_tP mode _ hs
  · exact permuteCommand_answers tableInRange_tPINV mode _ hs
  · exact permuteCommand_answers tableInRange_tPC1 mode _ hs
  · exact permuteCommand_answers tableInRange_tPC2 mode _ hs
  · exact absurd rfl hid

/-- Every well-formed command but RDKEY completes with its result and leaves the file as R11 says. -/
theorem exec_answers {i : Instr} (hw : WellFormed i = true) (hi : ∀ idx, i ≠ .rdkey idx) :
    exec i s = .next (answer { s with rk := fileAfter i s } 0#4 (resultOf i s.kin s.din)) := by
  cases i with
  | ip => exact permuteCommand_answers_block hs tableInRange_tIP _ _
  | fp => exact permuteCommand_answers_block hs tableInRange_tFP _ _
  | pbox => exact permuteCommand_answers tableInRange_tP _ _ hs
  | pboxinv => exact permuteCommand_answers tableInRange_tPINV _ _ hs
  | expand => exact permuteCommand_answers tableInRange_tE _ _ hs
  | pc1 => exact permuteCommand_answers tableInRange_tPC1 _ _ hs
  | pc2 => exact permuteCommand_answers tableInRange_tPC2 _ _ hs
  | bperm tsel mode => exact exec_bperm_answers hs (by simpa [WellFormed] using hw) mode
  | genkeys => exact exec_genkeys_answers hs
  | rdkey idx => exact absurd rfl (hi idx)
  | feistel => exact exec_feistel_answers hs
  | isoround => exact execIsoround_of_live hs
  | encrypt => exact exec_encrypt_answers hs

/-- R46 (a): the one ill-formed command is BPERM on table id 7. -/
theorem exec_of_not_wellFormed {i : Instr} (hw : ¬ WellFormed i = true) :
    exec i s = .next (s.takeFault .illegalCommand) := by
  cases i with
  | bperm tsel mode =>
    obtain rfl : tsel = 7#3 := by simpa [WellFormed] using hw
    exact execBperm_seven_of_live hs mode
  | _ => exact absurd rfl hw

/-- No command but RDKEY reads the file: with another file the response and `FLT` are the same, and what the commands that
write the file leave in it. -/
theorem exec_ignores_file {i : Instr} (rk' : Option RoundKeys) (hi : ∀ idx, i ≠ .rdkey idx) :
    ∃ t t' : State, exec i s = .next t ∧ exec i { s with rk := rk' } = .next t' ∧ t'.responses = t.responses ∧
      t'.flt = t.flt ∧ (WritesKeys i → t'.rk = t.rk) := by
  have hs' : Live { s with rk := rk' } := hs
  by_cases hw : WellFormed i = true
  · refine ⟨_, _, exec_answers hs hw hi, exec_answers hs' hw hi, rfl, rfl, ?_⟩
    rintro (rfl | rfl) <;> rfl
  · exact ⟨_, _, exec_of_not_wellFormed hs hw, exec_of_not_wellFormed hs' hw, rfl, rfl,
      fun h => absurd h.wellFormed hw⟩

theorem exec_rdkey_reads {ks : RoundKeys} (hk : s.rk = some ks) (idx : U4) :
    exec (.rdkey idx) s = .next (answer s 0#4 ((ks.getD idx.toNat 0#48).setWidth 64)) := by
  rw [RoundKeys.getD_eq_get ks idx.isLt]
  exact exec_rdkey_of_written hs hk idx

end

/-- Settles O23: the answers of the commands on a live core, and RDKEY by whether the file is written, which it is after
GENKEYS and ENCRYPT. -/
theorem commandsCompleteWithoutPreparation : Obligations.CommandsCompleteWithoutPreparation := by
  refine ⟨fun i s hs => exec_answers hs, fun i s rk' hs => exec_ignores_file hs rk', fun s t hs h => ?after,
    fun idx s hs hv => ?written, fun idx s hs hv => ?unwritten⟩
  case after =>
    obtain ⟨i, hi, ht⟩ : ∃ i, WritesKeys i ∧ exec i s = .next t :=
      h.elim (fun h => ⟨_, .inl rfl, h⟩) fun h => ⟨_, .inr rfl, h⟩
    have he := exec_cases ht
    have hk := he.rk_of_writes hs hi
    exact ⟨hk, State.rkv_of_some hk, exec_rdkey_reads ((he.flt_of_writes hi).trans hs) hk⟩
  case written =>
    obtain ⟨ks, hk⟩ := (State.rkv_eq_one_iff s).1 hv
    exact ⟨ks, hk, exec_rdkey_reads hs hk idx⟩
  case unwritten => exact exec_rdkey_of_unwritten hs ((State.rkv_eq_zero_iff s).1 hv) idx

end Sys2Proof.Machine
end
